-- ==== Sys2Proof/Word.lean ====
section
/-! DEFINITION. The word types of the device (00_scope R10, 40_conversion R100): every value is an unsigned word of a
stated width, with arithmetic modulo 2^w. -/

namespace Sys2Proof

/-- A byte of either stream. -/
abbrev Byte := BitVec 8

/-- A 4-bit header field (30_encoding R71: B and C). -/
abbrev Nibble := BitVec 4

/-- The word of MD5, SHA-1, SHA-256, RIPEMD and HAVAL (10_state R24). -/
abbrev Word32 := BitVec 32

/-- The word of SHA-384, SHA-512, Whirlpool and Tiger, and the container of CRC values (10_state R24, R28). -/
abbrev Word64 := BitVec 64

end Sys2Proof
end

