-- ==== Sys2Proof/Machine/Conv.lean ====
section
/-! DEFINITION. The bit rotation and endian conversion layer (40_conversion R100 to R108): pure functions over words and
byte sequences. -/

namespace Sys2Proof.Machine

/-- The number a byte sequence spells with its first byte least significant: Σ B[i] · 2^(8i) (40_conversion R101). -/
def leNat : List Byte → Nat
  | [] => 0
  | b :: bs => b.toNat + 256 * leNat bs

/-- The number a byte sequence spells with its first byte most significant (40_conversion R102). -/
def beNat (bs : List Byte) : Nat := leNat bs.reverse

/-- The first `k` successive pieces of `n` items of a list. -/
def pieces {α : Type} (n : Nat) : Nat → List α → List (List α)
  | 0, _ => []
  | k + 1, xs => xs.take n :: pieces n k (xs.drop n)

/-- Assembly into words of `w` bits, each piece of `w/8` bytes read by `read`. A length that is not a multiple of `w/8` is
refused, which is `none` (40_conversion R101, R102). -/
def assemble (read : List Byte → Nat) (w : Nat) (bs : List Byte) : Option (List (BitVec w)) :=
  if bs.length % (w / 8) = 0 then
    some ((pieces (w / 8) (bs.length / (w / 8)) bs).map fun p => BitVec.ofNat w (read p))
  else
    none

/-- `LE_w(B)`: little-endian assembly, `none` where the rule has a model refuse (40_conversion R101). -/
def leWords (w : Nat) (bs : List Byte) : Option (List (BitVec w)) := assemble leNat w bs

/-- `BE_w(B)`: big-endian assembly, `none` where the rule has a model refuse (40_conversion R102). -/
def beWords (w : Nat) (bs : List Byte) : Option (List (BitVec w)) := assemble beNat w bs

/-- The words a core reads from its block. A core's operand is a whole block, whose assembly is not refused
(`leWords_whole`, `beWords_whole`); on any other bytes, which no rule gives a core, it reads no word (log entry 14). -/
def blockWords {w : Nat} (assembled : Option (List (BitVec w))) : List (BitVec w) := assembled.getD []

/-- `n` bytes of a number, least significant first (40_conversion R103). -/
def leBytesOf : Nat → Nat → List Byte
  | 0, _ => []
  | n + 1, x => BitVec.ofNat 8 x :: leBytesOf n (x / 256)

/-- `n` bytes of a number, most significant first (40_conversion R103). -/
def beBytesOf (n x : Nat) : List Byte := (leBytesOf n x).reverse

/-- `LEbytes_w(x)` for one word (40_conversion R103). -/
def leBytes {w : Nat} (x : BitVec w) : List Byte := leBytesOf (w / 8) x.toNat

/-- `BEbytes_w(x)` for one word (40_conversion R103). -/
def beBytes {w : Nat} (x : BitVec w) : List Byte := beBytesOf (w / 8) x.toNat

/-- `rotl_w(x, n)`, by `n mod w` (40_conversion R104). -/
def rotl {w : Nat} (x : BitVec w) (n : Nat) : BitVec w :=
  if n % w = 0 then x else x <<< (n % w) ||| x >>> (w - n % w)

/-- `rotr_w(x, n) = rotl_w(x, (w - (n mod w)) mod w)` (40_conversion R105). -/
def rotr {w : Nat} (x : BitVec w) (n : Nat) : BitVec w := rotl x ((w - n % w) % w)

/-- The low `n` bits of a number in reverse order: bit `n-1-i` of the result is bit `i` of the operand
(40_conversion R106). -/
def reflectNat : Nat → Nat → Nat
  | 0, _ => 0
  | n + 1, v => v % 2 * 2 ^ n + reflectNat n (v / 2)

/-- `reflect_n(v)` on a value of `n` bits held in 64 (40_conversion R106). -/
def reflect (n : Nat) (v : Word64) : Word64 := BitVec.ofNat 64 (reflectNat n v.toNat)

/-- `mask(n) = 2^n - 1`, exact for every `n` up to 64 (40_conversion R108). -/
def mask (n : Nat) : Word64 := BitVec.ofNat 64 (2 ^ n - 1)

/-- Byte `k` of a 64-bit word: bits `8k+7` down to `8k` (20_memory R54). -/
def byteOf (x : Word64) (k : Nat) : Byte := BitVec.ofNat 8 (x.toNat >>> (8 * k))

end Sys2Proof.Machine
end

