-- ==== Sys2Proof/Config.lean ====
section
/-! DEFINITION. What an instance or an implementation fixes: the descriptor keys, the CRC orders and the open parameters
(00_scope R8, R9). The spec yields no unconstrained value (93_implementation_defined: `any value` is not used), so there is
no opaque constant here. The open parameters are carried in State, so that every statement holds for each of their
values (log entry 1). -/

namespace Sys2Proof

/-- The pass count of a HAVAL instance (00_scope R9; 30_encoding R77). -/
inductive HavalPasses where
  | three
  | four
  | five
  deriving DecidableEq, Repr

/-- The output length of a HAVAL instance in bits (30_encoding R78). -/
inductive HavalLen where
  | b128
  | b160
  | b192
  | b224
  | b256
  deriving DecidableEq, Repr

/-- The descriptor key `desc` of a hash instance: an algorithm id, with passes and hlen for HAVAL (10_state R23). -/
inductive Alg where
  | md5
  | sha1
  | sha256
  | sha384
  | sha512
  | ripemd128
  | ripemd160
  | ripemd256
  | whirlpool
  | tiger
  | haval (passes : HavalPasses) (hlen : HavalLen)
  deriving DecidableEq, Repr

/-- The order of a CRC instance: 8 to 64 bits in steps of 8 (10_state R28). -/
inductive CrcOrder where
  | o8
  | o16
  | o24
  | o32
  | o40
  | o48
  | o56
  | o64
  deriving DecidableEq, Repr

/-- The two values the open parameter `TIGER_MARKER` may have (00_scope R9; 48_tiger R340): 0x01, or 0x80 which gives
Tiger2. -/
inductive TigerMarker where
  | marker01
  | marker80
  deriving DecidableEq, Repr

/-- The open parameters the rules read, but for `N_SLOTS`, which is the number of slots State holds (00_scope R9). -/
structure Params where
  tigerMarker : TigerMarker
  crcReflectInit : Bool
  deriving DecidableEq, Repr

/-- The spec's own values of the open parameters (00_scope R9; DESIGN CHOICE, log entry 1). -/
def Params.spec : Params := { tigerMarker := .marker01, crcReflectInit := false }

/-- `N_SLOTS` in the spec's examples (92_eei_decisions, named parameters left open; DESIGN CHOICE, log entry 1). -/
def Config.exampleSlots : Nat := 4

/-- `MAX_UPDATE_LEN`: the largest byte count one UPDATE or COMPUTE carries (00_scope R9; 30_encoding R80). -/
def Config.maxUpdateLen : Nat := 2 ^ 32 - 1

/-- `WHIRLPOOL_LEN_BYTES` (00_scope R9). -/
def Config.whirlpoolLenBytes : Nat := 32

end Sys2Proof
end

