-- ==== Sys2Proof/Machine/State.lean ====
section
/-! DEFINITION. The state of the device (10_state R20 to R37) with its two byte streams (20_memory R50), as plain data, the
reasons a step can stop, and the state after device reset (70_reset R440). -/

namespace Sys2Proof.Machine

/-- Whether an instance accepts UPDATE (10_state R26). -/
inductive Phase where
  | active
  | finalized
  deriving DecidableEq, Repr

/-- An accumulator: words of 32 or of 64 bits (10_state R24). Which, and how many, the descriptor fixes; that they agree is
part of the invariant of Safety.lean (log entry 13). -/
inductive Acc where
  | w32 (ws : List Word32)
  | w64 (ws : List Word64)
  deriving DecidableEq, Repr

/-- A hash instance (10_state R23). `buf` holds exactly the `buffered` meaningful bytes (R36, log entry 2). -/
structure HashInst where
  desc : Alg
  phase : Phase
  buf : List Byte
  count : Nat
  acc : Acc
  deriving DecidableEq, Repr

/-- `CrcParams` (10_state R28). The values are held in 64 bits; that they are below `2^order` is checked at
CRC_CONSTRUCT and part of the invariant of Safety.lean (log entry 12). -/
structure CrcParams where
  order : CrcOrder
  poly : Word64
  init : Word64
  xorout : Word64
  reflect : Bool
  deriving DecidableEq, Repr

/-- A `CrcTable`: 256 entries of `order` bits (10_state R29). -/
abbrev CrcTable := List Word64

/-- A CRC instance (10_state R27). -/
structure CrcInst where
  params : CrcParams
  table : CrcTable
  reg : Word64
  phase : Phase
  deriving DecidableEq, Repr

/-- A slot (10_state R22). -/
inductive Slot where
  | empty
  | hash (i : HashInst)
  | crc (c : CrcInst)
  deriving DecidableEq, Repr

/-- The error codes (60_exceptions R401). No other code exists (U8). -/
inductive ErrorCode where
  | illegalCommand
  | badSlot
  | slotEmpty
  | slotBusy
  | configAlg
  | configHaval
  | configParam
  | configCrcOrder
  | configCrcValue
  | usageFinalizeTwice
  | usageUpdateAfterFinalize
  deriving DecidableEq, Repr

/-- What fault entry saves (10_state R31; 60_exceptions R404). -/
structure FaultRecord where
  code : ErrorCode
  slot : Byte
  atNcmd : Nat
  deriving DecidableEq, Repr

/-- The state of the device: the record of 10_state R20, the two streams of 20_memory R50, and the open parameters the
rules read (log entry 1). `N_SLOTS` is the length of `slots`. -/
structure State where
  /-- `slot[0 .. N_SLOTS-1]` (10_state R20, R22) -/
  slots : List Slot
  /-- the CRC table cache, in one canonical order (10_state R29, log entry 11) -/
  cache : List (CrcParams × CrcTable)
  /-- the fault record (10_state R31) -/
  fault : Option FaultRecord
  /-- the number of commands completed (10_state R32) -/
  ncmd : Nat
  /-- the command-stream bytes received and not yet consumed (20_memory R57) -/
  commands : List Byte
  /-- every byte appended to the response stream since device reset (30_encoding R86) -/
  responses : List Byte
  /-- the open parameters `TIGER_MARKER` and `CRC_REFLECT_INIT`; no step writes them (00_scope R9) -/
  params : Params
  deriving DecidableEq, Repr

/-- Why the engine has no step. Each is a stuck state of the spec (93_implementation_defined U11, U12), not an error the
device reports: an error is fault ENTRY, which is a next state (log entries 4 and 5). -/
inductive Fault where
  /-- Raised by `step`, and by every meaning, in the fault state: the engine takes no step until device reset
  (60_exceptions R404). Safe: nothing is proved of a state after it. -/
  | halted (r : FaultRecord)
  /-- Raised by `step` when no byte of a next command has arrived: the engine waits for a header word
  (20_memory R57); a run whose every command completed ends here (70_reset R451 kind 1). Safe. -/
  | waiting
  /-- Raised by `step` when a command has begun and its bytes have not all arrived: the engine waits inside it, without
  timeout and with no effect (20_memory R57; 70_reset R451 kind 3). Safe. -/
  | starved
  deriving DecidableEq, Repr

/-- Why an instruction has no meaning in the model. -/
inductive Refusal where
  /-- An arm of Dispatch.lean whose instruction has no meaning yet. Safe. No arm is left at it. -/
  | notModelled (mnemonic : String)
  deriving DecidableEq, Repr

/-- The state after device reset of a device with `n` slots and open parameters `p` (70_reset R440; 10_state R37). -/
def State.resetOf (n : Nat) (p : Params) : State :=
  { slots := List.replicate n .empty, cache := [], fault := none, ncmd := 0, commands := [], responses := [], params := p }

/-- The machine right after device reset (70_reset R440), with the spec's own values of the open parameters
(DESIGN CHOICE, log entry 1). -/
def State.reset : State := State.resetOf Config.exampleSlots Params.spec

end Sys2Proof.Machine
end

