-- ==== Sys2Proof/Machine/Crc.lean ====
section
/-! DEFINITION. The CRC table generator, the table cache and the CRC engine (43_crc R180 to R192). -/

namespace Sys2Proof.Machine

/-- The order in bits (10_state R28). -/
def orderBits : CrcOrder → Nat
  | .o8 => 8
  | .o16 => 16
  | .o24 => 24
  | .o32 => 32
  | .o40 => 40
  | .o48 => 48
  | .o56 => 56
  | .o64 => 64

/-- One of the 8 rounds of a table entry: read the top bit, shift left within `order` bits, XOR the polynomial in if the
top bit was set (43_crc R181). -/
def crcShift (order : Nat) (poly r : Word64) : Word64 :=
  if r.getLsbD (order - 1) then ((r <<< 1) &&& mask order) ^^^ poly else (r <<< 1) &&& mask order

/-- `n` rounds of `crcShift`. -/
def crcShifts (order : Nat) (poly : Word64) : Nat → Word64 → Word64
  | 0, r => r
  | n + 1, r => crcShifts order poly n (crcShift order poly r)

/-- Entry `T[v]` of the table (43_crc R181). -/
def tableEntry (p : CrcParams) (v : Nat) : Word64 :=
  let n := orderBits p.order
  let x := if p.reflect then reflect 8 (BitVec.ofNat 64 v) else BitVec.ofNat 64 v
  let r := crcShifts n p.poly 8 (x <<< (n - 8))
  (if p.reflect then reflect n r else r) &&& mask n

/-- `GenTable(p)` (43_crc R181). -/
def genTable (p : CrcParams) : CrcTable := (List.range 256).map (tableEntry p)

/-- One number for each parameter record, which orders the cache (log entry 11). -/
def cacheKey (p : CrcParams) : Nat :=
  (((orderBits p.order * 2 ^ 64 + p.poly.toNat) * 2 ^ 64 + p.init.toNat) * 2 ^ 64 + p.xorout.toNat) * 2 + p.reflect.toNat

/-- The table the cache holds for `p`, if any: keys are compared by value (10_state R28; 43_crc R184). -/
def cacheFind (cache : List (CrcParams × CrcTable)) (p : CrcParams) : Option CrcTable :=
  match cache with
  | [] => none
  | (q, t) :: rest => if q = p then some t else cacheFind rest p

/-- Insert one entry whole, at its place in the canonical order (43_crc R184). -/
def cacheInsert (cache : List (CrcParams × CrcTable)) (p : CrcParams) (t : CrcTable) : List (CrcParams × CrcTable) :=
  match cache with
  | [] => [(p, t)]
  | (q, u) :: rest => if cacheKey p < cacheKey q then (p, t) :: (q, u) :: rest else (q, u) :: cacheInsert rest p t

/-- `Lookup(cache, p)`: the table, and the cache after it (43_crc R184). -/
def cacheLookup (cache : List (CrcParams × CrcTable)) (p : CrcParams) : CrcTable × List (CrcParams × CrcTable) :=
  match cacheFind cache p with
  | some t => (t, cache)
  | none => (genTable p, cacheInsert cache p (genTable p))

/-- `InitReg(p)`, with the open parameter `CRC_REFLECT_INIT` (43_crc R187). -/
def initReg (pr : Params) (p : CrcParams) : Word64 :=
  if pr.crcReflectInit && p.reflect then reflect (orderBits p.order) p.init else p.init

/-- The state of a CRC instance with a given table after construction (43_crc R186). -/
def crcInit (pr : Params) (p : CrcParams) (t : CrcTable) : CrcInst :=
  { params := p, table := t, reg := initReg pr p, phase := .active }

/-- `CrcReset(c)`: the table is kept (43_crc R187). -/
def crcReset (pr : Params) (c : CrcInst) : CrcInst := { c with reg := initReg pr c.params, phase := .active }

/-- Fold one byte into the register (43_crc R188). -/
def crcByte (c : CrcInst) (reg : Word64) (b : Byte) : Word64 :=
  let n := orderBits c.params.order
  if c.params.reflect then
    (reg >>> 8) ^^^ c.table.getD ((reg ^^^ b.setWidth 64) &&& 0xFF).toNat 0
  else
    ((reg <<< 8) &&& mask n) ^^^ c.table.getD (((reg >>> (n - 8)) ^^^ b.setWidth 64) &&& 0xFF).toNat 0

/-- `CrcUpdate(c, DATA)` on an active instance (43_crc R188). -/
def crcUpdate (c : CrcInst) (data : List Byte) : CrcInst := { c with reg := data.foldl (crcByte c) c.reg }

/-- The result of `CrcFinalize(c)`: `order/8` bytes, most significant first (43_crc R189). -/
def crcResult (c : CrcInst) : List Byte :=
  let n := orderBits c.params.order
  beBytesOf (n / 8) ((c.reg ^^^ c.params.xorout) &&& mask n).toNat

/-- The instance `CrcFinalize(c)` leaves: the register is unchanged (43_crc R189). -/
def crcFinalized (c : CrcInst) : CrcInst := { c with phase := .finalized }

end Sys2Proof.Machine
end

