-- ==== Sys2Proof/Machine/Haval.lean ====
section
/-! DEFINITION. The HAVAL compression core and output fold (49_haval R360 to R371). -/

namespace Sys2Proof.Machine

/-- The pass count as a number (30_encoding R77). -/
def havalPassCount : HavalPasses → Nat
  | .three => 3
  | .four => 4
  | .five => 5

/-- `hlen` in bits (30_encoding R78). -/
def havalBits : HavalLen → Nat
  | .b128 => 128
  | .b160 => 160
  | .b192 => 192
  | .b224 => 224
  | .b256 => 256

/-- `IV(HAVAL)` (49_haval R360). -/
def havalIV : List Word32 := [
  0x243F6A88, 0x85A308D3, 0x13198A2E, 0x03707344, 0xA4093822, 0x299F31D0, 0x082EFA98, 0xEC4E6C89]

/-- `F1` (49_haval R362). -/
def havalF1 (x6 x5 x4 x3 x2 x1 x0 : Word32) : Word32 :=
  (x1 &&& x4) ^^^ (x2 &&& x5) ^^^ (x3 &&& x6) ^^^ (x0 &&& x1) ^^^ x0

/-- `F2` (49_haval R362). -/
def havalF2 (x6 x5 x4 x3 x2 x1 x0 : Word32) : Word32 :=
  (x1 &&& x2 &&& x3) ^^^ (x2 &&& x4 &&& x5) ^^^ (x1 &&& x2) ^^^ (x1 &&& x4) ^^^ (x2 &&& x6) ^^^ (x3 &&& x5) ^^^
    (x4 &&& x5) ^^^ (x0 &&& x2) ^^^ x0

/-- `F3` (49_haval R362). -/
def havalF3 (x6 x5 x4 x3 x2 x1 x0 : Word32) : Word32 :=
  (x1 &&& x2 &&& x3) ^^^ (x1 &&& x4) ^^^ (x2 &&& x5) ^^^ (x3 &&& x6) ^^^ (x0 &&& x3) ^^^ x0

/-- `F4` (49_haval R362). -/
def havalF4 (x6 x5 x4 x3 x2 x1 x0 : Word32) : Word32 :=
  (x1 &&& x2 &&& x3) ^^^ (x2 &&& x4 &&& x5) ^^^ (x3 &&& x4 &&& x6) ^^^ (x1 &&& x4) ^^^ (x2 &&& x6) ^^^ (x3 &&& x4) ^^^
    (x3 &&& x5) ^^^ (x3 &&& x6) ^^^ (x4 &&& x5) ^^^ (x4 &&& x6) ^^^ (x0 &&& x4) ^^^ x0

/-- `F5` (49_haval R362). -/
def havalF5 (x6 x5 x4 x3 x2 x1 x0 : Word32) : Word32 :=
  (x1 &&& x4) ^^^ (x2 &&& x5) ^^^ (x3 &&& x6) ^^^ (x0 &&& x1 &&& x2 &&& x3) ^^^ (x0 &&& x5) ^^^ x0

/-- `F_p(phi_(passes,p)(…))`: the round function of pass `p` on the step's registers `x k` (49_haval R363). -/
def havalRoundF (passes : HavalPasses) (p : Nat) (x : Nat → Word32) : Word32 :=
  match passes, p with
  | .three, 1 => havalF1 (x 1) (x 0) (x 3) (x 5) (x 6) (x 2) (x 4)
  | .three, 2 => havalF2 (x 4) (x 2) (x 1) (x 0) (x 5) (x 3) (x 6)
  | .three, _ => havalF3 (x 6) (x 1) (x 2) (x 3) (x 4) (x 5) (x 0)
  | .four, 1 => havalF1 (x 2) (x 6) (x 1) (x 4) (x 5) (x 3) (x 0)
  | .four, 2 => havalF2 (x 3) (x 5) (x 2) (x 0) (x 1) (x 6) (x 4)
  | .four, 3 => havalF3 (x 1) (x 4) (x 3) (x 6) (x 0) (x 2) (x 5)
  | .four, _ => havalF4 (x 6) (x 4) (x 0) (x 5) (x 2) (x 1) (x 3)
  | .five, 1 => havalF1 (x 3) (x 4) (x 1) (x 0) (x 5) (x 2) (x 6)
  | .five, 2 => havalF2 (x 6) (x 2) (x 1) (x 0) (x 3) (x 4) (x 5)
  | .five, 3 => havalF3 (x 2) (x 6) (x 0) (x 4) (x 3) (x 1) (x 5)
  | .five, 4 => havalF4 (x 1) (x 5) (x 3) (x 2) (x 0) (x 4) (x 6)
  | .five, _ => havalF5 (x 2) (x 5) (x 0) (x 6) (x 4) (x 3) (x 1)

/-- `ord_p`: the message word of each step of pass `p` (49_haval R364). -/
def havalOrder (p : Nat) : List Nat :=
  match p with
  | 1 => [0, 1, 2, 3, 4, 5, 6, 7, 8, 9, 10, 11, 12, 13, 14, 15, 16, 17, 18, 19, 20, 21, 22, 23, 24, 25, 26, 27, 28, 29, 30, 31]
  | 2 => [5, 14, 26, 18, 11, 28, 7, 16, 0, 23, 20, 22, 1, 10, 4, 8, 30, 3, 21, 9, 17, 24, 29, 6, 19, 12, 15, 13, 2, 25, 31, 27]
  | 3 => [19, 9, 4, 20, 28, 17, 8, 22, 29, 14, 25, 12, 24, 30, 16, 26, 31, 15, 7, 3, 1, 0, 18, 27, 13, 6, 21, 10, 23, 11, 5, 2]
  | 4 => [24, 4, 0, 14, 2, 7, 28, 23, 26, 6, 30, 20, 18, 25, 19, 3, 22, 11, 31, 21, 8, 27, 12, 9, 1, 29, 5, 15, 17, 10, 16, 13]
  | _ => [27, 3, 21, 26, 17, 11, 20, 29, 19, 0, 12, 7, 13, 8, 31, 10, 5, 9, 14, 30, 18, 6, 28, 24, 2, 23, 16, 22, 4, 1, 25, 15]

/-- The words `PI` of the fractional part of pi (49_haval R365): entries 0 to 63. -/
def havalPiPart0 : List Word32 := [
  0x243F6A88, 0x85A308D3, 0x13198A2E, 0x03707344,
  0xA4093822, 0x299F31D0, 0x082EFA98, 0xEC4E6C89,
  0x452821E6, 0x38D01377, 0xBE5466CF, 0x34E90C6C,
  0xC0AC29B7, 0xC97C50DD, 0x3F84D5B5, 0xB5470917,
  0x9216D5D9, 0x8979FB1B, 0xD1310BA6, 0x98DFB5AC,
  0x2FFD72DB, 0xD01ADFB7, 0xB8E1AFED, 0x6A267E96,
  0xBA7C9045, 0xF12C7F99, 0x24A19947, 0xB3916CF7,
  0x0801F2E2, 0x858EFC16, 0x636920D8, 0x71574E69,
  0xA458FEA3, 0xF4933D7E, 0x0D95748F, 0x728EB658,
  0x718BCD58, 0x82154AEE, 0x7B54A41D, 0xC25A59B5,
  0x9C30D539, 0x2AF26013, 0xC5D1B023, 0x286085F0,
  0xCA417918, 0xB8DB38EF, 0x8E79DCB0, 0x603A180E,
  0x6C9E0E8B, 0xB01E8A3E, 0xD71577C1, 0xBD314B27,
  0x78AF2FDA, 0x55605C60, 0xE65525F3, 0xAA55AB94,
  0x57489862, 0x63E81440, 0x55CA396A, 0x2AAB10B6,
  0xB4CC5C34, 0x1141E8CE, 0xA15486AF, 0x7C72E993]

/-- The words `PI` of the fractional part of pi (49_haval R365): entries 64 to 127. -/
def havalPiPart1 : List Word32 := [
  0xB3EE1411, 0x636FBC2A, 0x2BA9C55D, 0x741831F6,
  0xCE5C3E16, 0x9B87931E, 0xAFD6BA33, 0x6C24CF5C,
  0x7A325381, 0x28958677, 0x3B8F4898, 0x6B4BB9AF,
  0xC4BFE81B, 0x66282193, 0x61D809CC, 0xFB21A991,
  0x487CAC60, 0x5DEC8032, 0xEF845D5D, 0xE98575B1,
  0xDC262302, 0xEB651B88, 0x23893E81, 0xD396ACC5,
  0x0F6D6FF3, 0x83F44239, 0x2E0B4482, 0xA4842004,
  0x69C8F04A, 0x9E1F9B5E, 0x21C66842, 0xF6E96C9A,
  0x670C9C61, 0xABD388F0, 0x6A51A0D2, 0xD8542F68,
  0x960FA728, 0xAB5133A3, 0x6EEF0B6C, 0x137A3BE4,
  0xBA3BF050, 0x7EFB2A98, 0xA1F1651D, 0x39AF0176,
  0x66CA593E, 0x82430E88, 0x8CEE8619, 0x456F9FB4,
  0x7D84A5C3, 0x3B8B5EBE, 0xE06F75D8, 0x85C12073,
  0x401A449F, 0x56C16AA6, 0x4ED3AA62, 0x363F7706,
  0x1BFEDF72, 0x429B023D, 0x37D0D724, 0xD00A1248,
  0xDB0FEAD3, 0x49F1C09B, 0x075372C9, 0x80991B7B]

/-- The words `PI` of the fractional part of pi (49_haval R365): entries 128 to 135. -/
def havalPiPart2 : List Word32 := [
  0x25D479D8, 0xF6E8DEF7, 0xE3FE501A, 0xB6794C3B,
  0x976CE0BD, 0x04C006BA, 0xC1A94FB6, 0x409F60C4]

/-- The words `PI` of the fractional part of pi (49_haval R365). -/
def havalPi : List Word32 := havalPiPart0 ++ havalPiPart1 ++ havalPiPart2

/-- `K_p[i]`: pass 1 adds no constant (49_haval R365). -/
def havalK (p i : Nat) : Word32 := if p = 1 then 0 else havalPi.getD (8 + 32 * (p - 2) + i) 0

/-- Step `i` of pass `p` on the registers `t[0..7]` (49_haval R366); `8 * 4 + k - i` is `k - i` modulo 8, as `i` is at
most 31. -/
def havalStep (passes : HavalPasses) (w : List Word32) (p : Nat) (t : List Word32) (i : Nat) : List Word32 :=
  let x := fun k => t.getD ((32 + k - i) % 8) 0
  t.set ((39 - i) % 8)
    (rotr (havalRoundF passes p x) 7 + rotr (x 7) 11 + w.getD ((havalOrder p).getD i 0) 0 + havalK p i)

/-- Pass `p` (49_haval R366). -/
def havalPass (passes : HavalPasses) (w t : List Word32) (p : Nat) : List Word32 :=
  (List.range 32).foldl (havalStep passes w p) t

/-- `Compress_HAVAL(acc, block)` (49_haval R366). -/
def havalCompress (passes : HavalPasses) (acc : List Word32) (block : List Byte) : List Word32 :=
  let h := (List.range 8).map fun i => acc.getD i 0
  let t := (List.range' 1 (havalPassCount passes)).foldl (havalPass passes (blockWords (leWords 32 block))) h
  List.zipWith (· + ·) h t

/-- `HavalFold(D, hlen)` (49_haval R370). -/
def havalFold (acc : List Word32) (hlen : HavalLen) : List Word32 :=
  let d := fun i => acc.getD i 0
  match hlen with
  | .b256 => acc
  | .b224 => [
      d 0 + ((d 7 >>> 27) &&& 0x1F),
      d 1 + ((d 7 >>> 22) &&& 0x1F),
      d 2 + ((d 7 >>> 18) &&& 0x0F),
      d 3 + ((d 7 >>> 13) &&& 0x1F),
      d 4 + ((d 7 >>> 9) &&& 0x0F),
      d 5 + ((d 7 >>> 4) &&& 0x1F),
      d 6 + (d 7 &&& 0x0F)]
  | .b192 => [
      d 0 + rotr ((d 7 &&& 0x0000001F) ||| (d 6 &&& 0xFC000000)) 26,
      d 1 + ((d 7 &&& 0x000003E0) ||| (d 6 &&& 0x0000001F)),
      d 2 + (((d 7 &&& 0x0000FC00) ||| (d 6 &&& 0x000003E0)) >>> 5),
      d 3 + (((d 7 &&& 0x001F0000) ||| (d 6 &&& 0x0000FC00)) >>> 10),
      d 4 + (((d 7 &&& 0x03E00000) ||| (d 6 &&& 0x001F0000)) >>> 16),
      d 5 + (((d 7 &&& 0xFC000000) ||| (d 6 &&& 0x03E00000)) >>> 21)]
  | .b160 => [
      d 0 + rotr ((d 7 &&& 0x0000003F) ||| (d 6 &&& 0xFE000000) ||| (d 5 &&& 0x01F80000)) 19,
      d 1 + rotr ((d 7 &&& 0x00000FC0) ||| (d 6 &&& 0x0000003F) ||| (d 5 &&& 0xFE000000)) 25,
      d 2 + ((d 7 &&& 0x0007F000) ||| (d 6 &&& 0x00000FC0) ||| (d 5 &&& 0x0000003F)),
      d 3 + (((d 7 &&& 0x01F80000) ||| (d 6 &&& 0x0007F000) ||| (d 5 &&& 0x00000FC0)) >>> 6),
      d 4 + (((d 7 &&& 0xFE000000) ||| (d 6 &&& 0x01F80000) ||| (d 5 &&& 0x0007F000)) >>> 12)]
  | .b128 => [
      d 0 + rotr ((d 7 &&& 0x000000FF) ||| (d 6 &&& 0xFF000000) ||| (d 5 &&& 0x00FF0000) ||| (d 4 &&& 0x0000FF00)) 8,
      d 1 + rotr ((d 7 &&& 0x0000FF00) ||| (d 6 &&& 0x000000FF) ||| (d 5 &&& 0xFF000000) ||| (d 4 &&& 0x00FF0000)) 16,
      d 2 + rotr ((d 7 &&& 0x00FF0000) ||| (d 6 &&& 0x0000FF00) ||| (d 5 &&& 0x000000FF) ||| (d 4 &&& 0xFF000000)) 24,
      d 3 + ((d 7 &&& 0xFF000000) ||| (d 6 &&& 0x00FF0000) ||| (d 5 &&& 0x0000FF00) ||| (d 4 &&& 0x000000FF))]

end Sys2Proof.Machine
end

