-- ==== Sys2Proof/Machine/Md5.lean ====
section
/-! DEFINITION. The MD5 compression core (44_md5 R210 to R216). -/

namespace Sys2Proof.Machine

/-- Four 32-bit working registers: MD5's `a, b, c, d` and one line of RIPEMD-128 and RIPEMD-256. -/
structure Regs4 where
  a : Word32
  b : Word32
  c : Word32
  d : Word32
  deriving DecidableEq, Repr

/-- Four accumulator words, from word `i` on, as registers. -/
def loadRegs4 (acc : List Word32) (i : Nat) : Regs4 :=
  { a := acc.getD i 0, b := acc.getD (i + 1) 0, c := acc.getD (i + 2) 0, d := acc.getD (i + 3) 0 }

/-- `IV(MD5)` (44_md5 R211). -/
def md5IV : List Word32 := [0x67452301, 0xEFCDAB89, 0x98BADCFE, 0x10325476]

/-- The additive constants `K[0..63]` (44_md5 R213). -/
def md5K : List Word32 := [
  0xD76AA478, 0xE8C7B756, 0x242070DB, 0xC1BDCEEE,
  0xF57C0FAF, 0x4787C62A, 0xA8304613, 0xFD469501,
  0x698098D8, 0x8B44F7AF, 0xFFFF5BB1, 0x895CD7BE,
  0x6B901122, 0xFD987193, 0xA679438E, 0x49B40821,
  0xF61E2562, 0xC040B340, 0x265E5A51, 0xE9B6C7AA,
  0xD62F105D, 0x02441453, 0xD8A1E681, 0xE7D3FBC8,
  0x21E1CDE6, 0xC33707D6, 0xF4D50D87, 0x455A14ED,
  0xA9E3E905, 0xFCEFA3F8, 0x676F02D9, 0x8D2A4C8A,
  0xFFFA3942, 0x8771F681, 0x6D9D6122, 0xFDE5380C,
  0xA4BEEA44, 0x4BDECFA9, 0xF6BB4B60, 0xBEBFBC70,
  0x289B7EC6, 0xEAA127FA, 0xD4EF3085, 0x04881D05,
  0xD9D4D039, 0xE6DB99E5, 0x1FA27CF8, 0xC4AC5665,
  0xF4292244, 0x432AFF97, 0xAB9423A7, 0xFC93A039,
  0x655B59C3, 0x8F0CCC92, 0xFFEFF47D, 0x85845DD1,
  0x6FA87E4F, 0xFE2CE6E0, 0xA3014314, 0x4E0811A1,
  0xF7537E82, 0xBD3AF235, 0x2AD7D2BB, 0xEB86D391]

/-- The rotation amounts of one round of 16 steps, for `i mod 4` (44_md5 R214). -/
def md5ShiftRow (round : Nat) : List Nat :=
  match round with
  | 0 => [7, 12, 17, 22]
  | 1 => [5, 9, 14, 20]
  | 2 => [4, 11, 16, 23]
  | _ => [6, 10, 15, 21]

/-- `S[i]` (44_md5 R214). -/
def md5Shift (i : Nat) : Nat := (md5ShiftRow (i / 16)).getD (i % 4) 0

/-- `Fn(i, b, c, d)`: the round function value and the message word index (44_md5 R215). -/
def md5Fn (i : Nat) (b c d : Word32) : Word32 × Nat :=
  match i / 16 with
  | 0 => ((b &&& c) ||| (~~~b &&& d), i)
  | 1 => ((d &&& b) ||| (~~~d &&& c), (5 * i + 1) % 16)
  | 2 => (b ^^^ c ^^^ d, (3 * i + 5) % 16)
  | _ => (c ^^^ (b ||| ~~~d), (7 * i) % 16)

/-- One step of the MD5 core (44_md5 R212). -/
def md5Step (x : List Word32) (r : Regs4) (i : Nat) : Regs4 :=
  let fg := md5Fn i r.b r.c r.d
  let t := r.a + fg.1 + md5K.getD i 0 + x.getD fg.2 0
  { a := r.d, b := r.b + rotl t (md5Shift i), c := r.b, d := r.c }

/-- `Compress_MD5(acc, block)` (44_md5 R212). -/
def md5Compress (acc : List Word32) (block : List Byte) : List Word32 :=
  let r0 := loadRegs4 acc 0
  let r := (List.range 64).foldl (md5Step (blockWords (leWords 32 block))) r0
  [r0.a + r.a, r0.b + r.b, r0.c + r.c, r0.d + r.d]

end Sys2Proof.Machine
end

