-- ==== Sys2Proof/Machine/Ripemd.lean ====
section
/-! DEFINITION. The RIPEMD-128, RIPEMD-160 and RIPEMD-256 compression cores (46_ripemd R270 to R283). -/

namespace Sys2Proof.Machine

/-- The boolean function `f_j(x, y, z)`, for `j` in 1 to 5 (46_ripemd R271). -/
def ripemdF (j : Nat) (x y z : Word32) : Word32 :=
  match j with
  | 1 => x ^^^ y ^^^ z
  | 2 => (x &&& y) ||| (~~~x &&& z)
  | 3 => (x ||| ~~~y) ^^^ z
  | 4 => (x &&& z) ||| (y &&& ~~~z)
  | _ => x ^^^ (y ||| ~~~z)

/-- `RL`: the message word of each step of the left line (46_ripemd R272). -/
def ripemdRL : List Nat := [
  0, 1, 2, 3, 4, 5, 6, 7, 8, 9, 10, 11, 12, 13, 14, 15,
  7, 4, 13, 1, 10, 6, 15, 3, 12, 0, 9, 5, 2, 14, 11, 8,
  3, 10, 14, 4, 9, 15, 8, 1, 2, 7, 0, 6, 13, 11, 5, 12,
  1, 9, 11, 10, 0, 8, 12, 4, 13, 3, 7, 15, 14, 5, 6, 2,
  4, 0, 5, 9, 7, 12, 2, 10, 14, 1, 3, 8, 11, 6, 15, 13]

/-- `RR`: the message word of each step of the right line (46_ripemd R272). -/
def ripemdRR : List Nat := [
  5, 14, 7, 0, 9, 2, 11, 4, 13, 6, 15, 8, 1, 10, 3, 12,
  6, 11, 3, 7, 0, 13, 5, 10, 14, 15, 8, 12, 4, 9, 1, 2,
  15, 5, 1, 3, 7, 14, 6, 9, 11, 8, 12, 2, 10, 0, 4, 13,
  8, 6, 4, 1, 3, 11, 15, 0, 5, 12, 2, 13, 9, 7, 10, 14,
  12, 15, 10, 4, 1, 5, 8, 7, 6, 2, 13, 14, 0, 3, 9, 11]

/-- `SL`: the rotation of each step of the left line (46_ripemd R273). -/
def ripemdSL : List Nat := [
  11, 14, 15, 12, 5, 8, 7, 9, 11, 13, 14, 15, 6, 7, 9, 8,
  7, 6, 8, 13, 11, 9, 7, 15, 7, 12, 15, 9, 11, 7, 13, 12,
  11, 13, 6, 7, 14, 9, 13, 15, 14, 8, 13, 6, 5, 12, 7, 5,
  11, 12, 14, 15, 14, 15, 9, 8, 9, 14, 5, 6, 8, 6, 5, 12,
  9, 15, 5, 11, 6, 8, 13, 12, 5, 12, 13, 14, 11, 8, 5, 6]

/-- `SR`: the rotation of each step of the right line (46_ripemd R273). -/
def ripemdSR : List Nat := [
  8, 9, 9, 11, 13, 15, 15, 5, 7, 7, 8, 11, 14, 14, 12, 6,
  9, 13, 15, 7, 12, 8, 9, 11, 7, 7, 12, 7, 6, 15, 13, 11,
  9, 7, 15, 11, 8, 6, 6, 14, 12, 13, 5, 14, 13, 13, 7, 5,
  15, 5, 8, 11, 14, 14, 6, 14, 6, 9, 12, 9, 12, 5, 15, 8,
  8, 5, 12, 9, 12, 5, 14, 6, 8, 13, 6, 5, 15, 13, 11, 11]

/-- `KL` of every variant (46_ripemd R274). -/
def ripemdKL : List Word32 := [0x00000000, 0x5A827999, 0x6ED9EBA1, 0x8F1BBCDC, 0xA953FD4E]

/-- `KR` of RIPEMD-160 (46_ripemd R274). -/
def ripemd160KR : List Word32 := [0x50A28BE6, 0x5C4DD124, 0x6D703EF3, 0x7A6D76E9, 0x00000000]

/-- `KR` of RIPEMD-128 and RIPEMD-256 (46_ripemd R274). -/
def ripemd128KR : List Word32 := [0x50A28BE6, 0x5C4DD124, 0x6D703EF3, 0x00000000]

/-- The registers of one line of RIPEMD-160. -/
structure Regs5 where
  a : Word32
  b : Word32
  c : Word32
  d : Word32
  e : Word32
  deriving DecidableEq, Repr

/-- The 5-register step: function number `j`, word `x`, constant `k`, rotation `s` (46_ripemd R275). -/
def ripemdStep5 (r : Regs5) (j : Nat) (x k : Word32) (s : Nat) : Regs5 :=
  { a := r.e, b := rotl (r.a + ripemdF j r.b r.c r.d + x + k) s + r.e, c := r.b, d := rotl r.c 10, e := r.d }

/-- The 4-register step: function number `j`, word `x`, constant `k`, rotation `s` (46_ripemd R276). -/
def ripemdStep4 (r : Regs4) (j : Nat) (x k : Word32) (s : Nat) : Regs4 :=
  { a := r.d, b := rotl (r.a + ripemdF j r.b r.c r.d + x + k) s, c := r.b, d := r.c }

/-- `IV(RIPEMD-160)` (46_ripemd R277). -/
def ripemd160IV : List Word32 := [0x67452301, 0xEFCDAB89, 0x98BADCFE, 0x10325476, 0xC3D2E1F0]

/-- Step `j` of both lines of RIPEMD-160 (46_ripemd R278). -/
def ripemd160Step (x : List Word32) (lr : Regs5 × Regs5) (j : Nat) : Regs5 × Regs5 :=
  (ripemdStep5 lr.1 (j / 16 + 1) (x.getD (ripemdRL.getD j 0) 0) (ripemdKL.getD (j / 16) 0) (ripemdSL.getD j 0),
   ripemdStep5 lr.2 (5 - j / 16) (x.getD (ripemdRR.getD j 0) 0) (ripemd160KR.getD (j / 16) 0) (ripemdSR.getD j 0))

/-- `Compress_RMD160(acc, block)` (46_ripemd R278). -/
def ripemd160Compress (acc : List Word32) (block : List Byte) : List Word32 :=
  let h := fun i => acc.getD i 0
  let r0 : Regs5 := { a := h 0, b := h 1, c := h 2, d := h 3, e := h 4 }
  let lr := (List.range 80).foldl (ripemd160Step (blockWords (leWords 32 block))) (r0, r0)
  [h 1 + lr.1.c + lr.2.d, h 2 + lr.1.d + lr.2.e, h 3 + lr.1.e + lr.2.a, h 4 + lr.1.a + lr.2.b, h 0 + lr.1.b + lr.2.c]

/-- Step `j` of both lines of RIPEMD-128 and RIPEMD-256 (46_ripemd R280, R282). -/
def ripemd128Step (x : List Word32) (lr : Regs4 × Regs4) (j : Nat) : Regs4 × Regs4 :=
  (ripemdStep4 lr.1 (j / 16 + 1) (x.getD (ripemdRL.getD j 0) 0) (ripemdKL.getD (j / 16) 0) (ripemdSL.getD j 0),
   ripemdStep4 lr.2 (4 - j / 16) (x.getD (ripemdRR.getD j 0) 0) (ripemd128KR.getD (j / 16) 0) (ripemdSR.getD j 0))

/-- `IV(RIPEMD-128)` (46_ripemd R279). -/
def ripemd128IV : List Word32 := [0x67452301, 0xEFCDAB89, 0x98BADCFE, 0x10325476]

/-- `Compress_RMD128(acc, block)` (46_ripemd R280). -/
def ripemd128Compress (acc : List Word32) (block : List Byte) : List Word32 :=
  let r0 := loadRegs4 acc 0
  let lr := (List.range 64).foldl (ripemd128Step (blockWords (leWords 32 block))) (r0, r0)
  [r0.b + lr.1.c + lr.2.d, r0.c + lr.1.d + lr.2.a, r0.d + lr.1.a + lr.2.b, r0.a + lr.1.b + lr.2.c]

/-- `IV(RIPEMD-256)` (46_ripemd R281). -/
def ripemd256IV : List Word32 := [
  0x67452301, 0xEFCDAB89, 0x98BADCFE, 0x10325476, 0x76543210, 0xFEDCBA98, 0x89ABCDEF, 0x01234567]

/-- The exchange of one register between the lines after step `j` (46_ripemd R282). -/
def ripemd256Swap (j : Nat) (lr : Regs4 × Regs4) : Regs4 × Regs4 :=
  match j with
  | 15 => ({ lr.1 with a := lr.2.a }, { lr.2 with a := lr.1.a })
  | 31 => ({ lr.1 with b := lr.2.b }, { lr.2 with b := lr.1.b })
  | 47 => ({ lr.1 with c := lr.2.c }, { lr.2 with c := lr.1.c })
  | 63 => ({ lr.1 with d := lr.2.d }, { lr.2 with d := lr.1.d })
  | _ => lr

/-- `Compress_RMD256(acc, block)` (46_ripemd R282). -/
def ripemd256Compress (acc : List Word32) (block : List Byte) : List Word32 :=
  let l0 := loadRegs4 acc 0
  let r0 := loadRegs4 acc 4
  let x := blockWords (leWords 32 block)
  let lr := (List.range 64).foldl (fun lr j => ripemd256Swap j (ripemd128Step x lr j)) (l0, r0)
  [l0.a + lr.1.a, l0.b + lr.1.b, l0.c + lr.1.c, l0.d + lr.1.d,
   r0.a + lr.2.a, r0.b + lr.2.b, r0.c + lr.2.c, r0.d + lr.2.d]

end Sys2Proof.Machine
end

