-- ==== Sys2Proof/Machine/Sha.lean ====
section
/-! DEFINITION. The SHA-1, SHA-256, SHA-384 and SHA-512 compression cores (45_sha R230 to R246). -/

namespace Sys2Proof.Machine

/-- Word `t - k` of a message schedule whose words so far are listed newest first. -/
def wordsBack {w : Nat} (newestFirst : List (BitVec w)) (k : Nat) : BitVec w := newestFirst.getD (k - 1) 0

/-- A message schedule: the block's 16 words followed by `n` words, each made by `next` from those before it,
newest first (45_sha R232, R238). -/
def schedule {w : Nat} (next : List (BitVec w) → BitVec w) (n : Nat) (block : List Byte) : List (BitVec w) :=
  ((List.range n).foldl (fun ws _ => next ws :: ws) (blockWords (beWords w block)).reverse).reverse

/-- `IV(SHA-1)` (45_sha R231). -/
def sha1IV : List Word32 := [0x67452301, 0xEFCDAB89, 0x98BADCFE, 0x10325476, 0xC3D2E1F0]

/-- The working registers of SHA-1. -/
structure Sha1Regs where
  a : Word32
  b : Word32
  c : Word32
  d : Word32
  e : Word32
  deriving DecidableEq, Repr

/-- `W[t]` of SHA-1 from the words before it (45_sha R232). -/
def sha1Next (ws : List Word32) : Word32 :=
  rotl (wordsBack ws 3 ^^^ wordsBack ws 8 ^^^ wordsBack ws 14 ^^^ wordsBack ws 16) 1

/-- `F1(t, b, c, d)`: the round function value and constant of SHA-1 (45_sha R233). -/
def sha1F (t : Nat) (b c d : Word32) : Word32 × Word32 :=
  match t / 20 with
  | 0 => ((b &&& c) ||| (~~~b &&& d), 0x5A827999)
  | 1 => (b ^^^ c ^^^ d, 0x6ED9EBA1)
  | 2 => ((b &&& c) ||| (b &&& d) ||| (c &&& d), 0x8F1BBCDC)
  | _ => (b ^^^ c ^^^ d, 0xCA62C1D6)

/-- One step of SHA-1, on step number `t` and word `W[t]` (45_sha R232). -/
def sha1Step (r : Sha1Regs) (tw : Nat × Word32) : Sha1Regs :=
  let fk := sha1F tw.1 r.b r.c r.d
  { a := rotl r.a 5 + fk.1 + r.e + fk.2 + tw.2, b := r.a, c := rotl r.b 30, d := r.c, e := r.d }

/-- `Compress_SHA1(acc, block)` (45_sha R232). -/
def sha1Compress (acc : List Word32) (block : List Byte) : List Word32 :=
  let h := fun i => acc.getD i 0
  let w := schedule sha1Next 64 block
  let r := ((List.range 80).zip w).foldl sha1Step { a := h 0, b := h 1, c := h 2, d := h 3, e := h 4 }
  [h 0 + r.a, h 1 + r.b, h 2 + r.c, h 3 + r.d, h 4 + r.e]

/-- What distinguishes the two word widths of SHA-2: the four functions of one word and the round constants
(45_sha R235, R236 for 32 bits; R241, R242 for 64 bits). -/
structure Sha2Params (w : Nat) where
  bigSigma0 : BitVec w → BitVec w
  bigSigma1 : BitVec w → BitVec w
  smallSigma0 : BitVec w → BitVec w
  smallSigma1 : BitVec w → BitVec w
  k : List (BitVec w)

/-- `Ch(x, y, z)` (45_sha R235). -/
def sha2Ch {w : Nat} (x y z : BitVec w) : BitVec w := (x &&& y) ^^^ (~~~x &&& z)

/-- `Maj(x, y, z)` (45_sha R235). -/
def sha2Maj {w : Nat} (x y z : BitVec w) : BitVec w := (x &&& y) ^^^ (x &&& z) ^^^ (y &&& z)

/-- The working registers of SHA-2. -/
structure Sha2Regs (w : Nat) where
  a : BitVec w
  b : BitVec w
  c : BitVec w
  d : BitVec w
  e : BitVec w
  f : BitVec w
  g : BitVec w
  h : BitVec w
  deriving DecidableEq, Repr

/-- `W[t]` of SHA-2 from the words before it (45_sha R238). -/
def sha2Next {w : Nat} (p : Sha2Params w) (ws : List (BitVec w)) : BitVec w :=
  p.smallSigma1 (wordsBack ws 2) + wordsBack ws 7 + p.smallSigma0 (wordsBack ws 15) + wordsBack ws 16

/-- One round of SHA-2, on `K[t]` and `W[t]` (45_sha R238). -/
def sha2Round {w : Nat} (p : Sha2Params w) (r : Sha2Regs w) (kw : BitVec w × BitVec w) : Sha2Regs w :=
  let t1 := r.h + p.bigSigma1 r.e + sha2Ch r.e r.f r.g + kw.1 + kw.2
  let t2 := p.bigSigma0 r.a + sha2Maj r.a r.b r.c
  { a := t1 + t2, b := r.a, c := r.b, d := r.c, e := r.d + t1, f := r.e, g := r.f, h := r.g }

/-- `Compress_SHA2(w, acc, block)`, with as many rounds as round constants (45_sha R238). -/
def sha2Compress {w : Nat} (p : Sha2Params w) (acc : List (BitVec w)) (block : List Byte) : List (BitVec w) :=
  let h := fun i => acc.getD i 0
  let ws := schedule (sha2Next p) (p.k.length - 16) block
  let r := (p.k.zip ws).foldl (sha2Round p)
    { a := h 0, b := h 1, c := h 2, d := h 3, e := h 4, f := h 5, g := h 6, h := h 7 }
  [h 0 + r.a, h 1 + r.b, h 2 + r.c, h 3 + r.d, h 4 + r.e, h 5 + r.f, h 6 + r.g, h 7 + r.h]

/-- The round constants `K256[0..63]` (45_sha R236). -/
def sha256K : List Word32 := [
  0x428A2F98, 0x71374491, 0xB5C0FBCF, 0xE9B5DBA5,
  0x3956C25B, 0x59F111F1, 0x923F82A4, 0xAB1C5ED5,
  0xD807AA98, 0x12835B01, 0x243185BE, 0x550C7DC3,
  0x72BE5D74, 0x80DEB1FE, 0x9BDC06A7, 0xC19BF174,
  0xE49B69C1, 0xEFBE4786, 0x0FC19DC6, 0x240CA1CC,
  0x2DE92C6F, 0x4A7484AA, 0x5CB0A9DC, 0x76F988DA,
  0x983E5152, 0xA831C66D, 0xB00327C8, 0xBF597FC7,
  0xC6E00BF3, 0xD5A79147, 0x06CA6351, 0x14292967,
  0x27B70A85, 0x2E1B2138, 0x4D2C6DFC, 0x53380D13,
  0x650A7354, 0x766A0ABB, 0x81C2C92E, 0x92722C85,
  0xA2BFE8A1, 0xA81A664B, 0xC24B8B70, 0xC76C51A3,
  0xD192E819, 0xD6990624, 0xF40E3585, 0x106AA070,
  0x19A4C116, 0x1E376C08, 0x2748774C, 0x34B0BCB5,
  0x391C0CB3, 0x4ED8AA4A, 0x5B9CCA4F, 0x682E6FF3,
  0x748F82EE, 0x78A5636F, 0x84C87814, 0x8CC70208,
  0x90BEFFFA, 0xA4506CEB, 0xBEF9A3F7, 0xC67178F2]

/-- `IV(SHA-256)` (45_sha R237). -/
def sha256IV : List Word32 := [
  0x6A09E667, 0xBB67AE85, 0x3C6EF372, 0xA54FF53A, 0x510E527F, 0x9B05688C, 0x1F83D9AB, 0x5BE0CD19]

/-- The SHA-256 functions and constants (45_sha R235, R236). -/
def sha256Params : Sha2Params 32 where
  bigSigma0 x := rotr x 2 ^^^ rotr x 13 ^^^ rotr x 22
  bigSigma1 x := rotr x 6 ^^^ rotr x 11 ^^^ rotr x 25
  smallSigma0 x := rotr x 7 ^^^ rotr x 18 ^^^ (x >>> 3)
  smallSigma1 x := rotr x 17 ^^^ rotr x 19 ^^^ (x >>> 10)
  k := sha256K

/-- `Compress_SHA256(acc, block)` (45_sha R238). -/
def sha256Compress (acc : List Word32) (block : List Byte) : List Word32 := sha2Compress sha256Params acc block

/-- The round constants `K512` (45_sha R242): entries 0 to 63. -/
def sha512KPart0 : List Word64 := [
  0x428A2F98D728AE22, 0x7137449123EF65CD,
  0xB5C0FBCFEC4D3B2F, 0xE9B5DBA58189DBBC,
  0x3956C25BF348B538, 0x59F111F1B605D019,
  0x923F82A4AF194F9B, 0xAB1C5ED5DA6D8118,
  0xD807AA98A3030242, 0x12835B0145706FBE,
  0x243185BE4EE4B28C, 0x550C7DC3D5FFB4E2,
  0x72BE5D74F27B896F, 0x80DEB1FE3B1696B1,
  0x9BDC06A725C71235, 0xC19BF174CF692694,
  0xE49B69C19EF14AD2, 0xEFBE4786384F25E3,
  0x0FC19DC68B8CD5B5, 0x240CA1CC77AC9C65,
  0x2DE92C6F592B0275, 0x4A7484AA6EA6E483,
  0x5CB0A9DCBD41FBD4, 0x76F988DA831153B5,
  0x983E5152EE66DFAB, 0xA831C66D2DB43210,
  0xB00327C898FB213F, 0xBF597FC7BEEF0EE4,
  0xC6E00BF33DA88FC2, 0xD5A79147930AA725,
  0x06CA6351E003826F, 0x142929670A0E6E70,
  0x27B70A8546D22FFC, 0x2E1B21385C26C926,
  0x4D2C6DFC5AC42AED, 0x53380D139D95B3DF,
  0x650A73548BAF63DE, 0x766A0ABB3C77B2A8,
  0x81C2C92E47EDAEE6, 0x92722C851482353B,
  0xA2BFE8A14CF10364, 0xA81A664BBC423001,
  0xC24B8B70D0F89791, 0xC76C51A30654BE30,
  0xD192E819D6EF5218, 0xD69906245565A910,
  0xF40E35855771202A, 0x106AA07032BBD1B8,
  0x19A4C116B8D2D0C8, 0x1E376C085141AB53,
  0x2748774CDF8EEB99, 0x34B0BCB5E19B48A8,
  0x391C0CB3C5C95A63, 0x4ED8AA4AE3418ACB,
  0x5B9CCA4F7763E373, 0x682E6FF3D6B2B8A3,
  0x748F82EE5DEFB2FC, 0x78A5636F43172F60,
  0x84C87814A1F0AB72, 0x8CC702081A6439EC,
  0x90BEFFFA23631E28, 0xA4506CEBDE82BDE9,
  0xBEF9A3F7B2C67915, 0xC67178F2E372532B]

/-- The round constants `K512` (45_sha R242): entries 64 to 79. -/
def sha512KPart1 : List Word64 := [
  0xCA273ECEEA26619C, 0xD186B8C721C0C207,
  0xEADA7DD6CDE0EB1E, 0xF57D4F7FEE6ED178,
  0x06F067AA72176FBA, 0x0A637DC5A2C898A6,
  0x113F9804BEF90DAE, 0x1B710B35131C471B,
  0x28DB77F523047D84, 0x32CAAB7B40C72493,
  0x3C9EBE0A15C9BEBC, 0x431D67C49C100D4C,
  0x4CC5D4BECB3E42B6, 0x597F299CFC657E2A,
  0x5FCB6FAB3AD6FAEC, 0x6C44198C4A475817]

/-- The round constants `K512` (45_sha R242). -/
def sha512K : List Word64 := sha512KPart0 ++ sha512KPart1

/-- `IV(SHA-512)` (45_sha R243). -/
def sha512IV : List Word64 := [
  0x6A09E667F3BCC908, 0xBB67AE8584CAA73B, 0x3C6EF372FE94F82B, 0xA54FF53A5F1D36F1,
  0x510E527FADE682D1, 0x9B05688C2B3E6C1F, 0x1F83D9ABFB41BD6B, 0x5BE0CD19137E2179]

/-- `IV(SHA-384)` (45_sha R245). -/
def sha384IV : List Word64 := [
  0xCBBB9D5DC1059ED8, 0x629A292A367CD507, 0x9159015A3070DD17, 0x152FECD8F70E5939,
  0x67332667FFC00B31, 0x8EB44A8768581511, 0xDB0C2E0D64F98FA7, 0x47B5481DBEFA4FA4]

/-- The SHA-512 functions and constants (45_sha R241, R242). -/
def sha512Params : Sha2Params 64 where
  bigSigma0 x := rotr x 28 ^^^ rotr x 34 ^^^ rotr x 39
  bigSigma1 x := rotr x 14 ^^^ rotr x 18 ^^^ rotr x 41
  smallSigma0 x := rotr x 1 ^^^ rotr x 8 ^^^ (x >>> 7)
  smallSigma1 x := rotr x 19 ^^^ rotr x 61 ^^^ (x >>> 6)
  k := sha512K

/-- `Compress_SHA512(acc, block)` (45_sha R244); SHA-384 has the same core (R245). -/
def sha512Compress (acc : List Word64) (block : List Byte) : List Word64 := sha2Compress sha512Params acc block

end Sys2Proof.Machine
end

