-- ==== Sys2Proof/Machine/Tiger.lean ====
section
/-! DEFINITION. The Tiger compression core (48_tiger R330 to R341). -/

namespace Sys2Proof.Machine

/-- The three registers of Tiger, in the roles a round gives them. -/
structure TigerRegs where
  a : Word64
  b : Word64
  c : Word64
  deriving DecidableEq, Repr

/-- `IV(Tiger)` (48_tiger R336). -/
def tigerIV : List Word64 := [0x0123456789ABCDEF, 0xFEDCBA9876543210, 0xF096A5B4C3B2E187]

/-- The four S-boxes a round reads (48_tiger R332, R338). -/
structure TigerBoxes where
  t1 : List Word64
  t2 : List Word64
  t3 : List Word64
  t4 : List Word64
  deriving DecidableEq, Repr

/-- The S-boxes of R339. -/
def tigerBoxes : TigerBoxes := { t1 := tigerT1, t2 := tigerT2, t3 := tigerT3, t4 := tigerT4 }

/-- Entry `c_k` of an S-box (48_tiger R333). -/
def tigerLookup (t : List Word64) (c : Word64) (k : Nat) : Word64 := t.getD (byteOf c k).toNat 0

/-- `Round(a, b, c, xi, mul)` (48_tiger R332). -/
def tigerRound (t : TigerBoxes) (mul : Word64) (r : TigerRegs) (xi : Word64) : TigerRegs :=
  let c := r.c ^^^ xi
  let even := tigerLookup t.t1 c 0 ^^^ tigerLookup t.t2 c 2 ^^^ tigerLookup t.t3 c 4 ^^^ tigerLookup t.t4 c 6
  let odd := tigerLookup t.t4 c 1 ^^^ tigerLookup t.t3 c 3 ^^^ tigerLookup t.t2 c 5 ^^^ tigerLookup t.t1 c 7
  { a := r.a - even, b := (r.b + odd) * mul, c := c }

/-- The roles of the next round: `Round(b, c, a, …)` after `Round(a, b, c, …)` (48_tiger R334). -/
def tigerTurn (r : TigerRegs) : TigerRegs := { a := r.b, b := r.c, c := r.a }

/-- `Pass(a, b, c, mul)`: 8 rounds, the roles turning after each; after 8 turns one more puts every register back in its
own place (48_tiger R334). -/
def tigerPass (t : TigerBoxes) (x : List Word64) (mul : Word64) (r : TigerRegs) : TigerRegs :=
  tigerTurn (x.foldl (fun r xi => tigerTurn (tigerRound t mul r xi)) r)

/-- `KeySchedule(x)` on eight words (48_tiger R335). -/
def tigerSchedule (x : List Word64) : List Word64 :=
  let x0 := x.getD 0 0 - (x.getD 7 0 ^^^ 0xA5A5A5A5A5A5A5A5)
  let x1 := x.getD 1 0 ^^^ x0
  let x2 := x.getD 2 0 + x1
  let x3 := x.getD 3 0 - (x2 ^^^ (~~~x1 <<< 19))
  let x4 := x.getD 4 0 ^^^ x3
  let x5 := x.getD 5 0 + x4
  let x6 := x.getD 6 0 - (x5 ^^^ (~~~x4 >>> 23))
  let x7 := x.getD 7 0 ^^^ x6
  let y0 := x0 + x7
  let y1 := x1 - (y0 ^^^ (~~~x7 <<< 19))
  let y2 := x2 ^^^ y1
  let y3 := x3 + y2
  let y4 := x4 - (y3 ^^^ (~~~y2 >>> 23))
  let y5 := x5 ^^^ y4
  let y6 := x6 + y5
  let y7 := x7 - (y6 ^^^ 0x0123456789ABCDEF)
  [y0, y1, y2, y3, y4, y5, y6, y7]

/-- `Pass(c, a, b, …)`: the registers in the roles of the second pass, and back (48_tiger R337). -/
def tigerPass2 (t : TigerBoxes) (x : List Word64) (mul : Word64) (r : TigerRegs) : TigerRegs :=
  let p := tigerPass t x mul { a := r.c, b := r.a, c := r.b }
  { a := p.b, b := p.c, c := p.a }

/-- `Pass(b, c, a, …)`: the registers in the roles of the third pass, and back (48_tiger R337). -/
def tigerPass3 (t : TigerBoxes) (x : List Word64) (mul : Word64) (r : TigerRegs) : TigerRegs :=
  let p := tigerPass t x mul { a := r.b, b := r.c, c := r.a }
  { a := p.c, b := p.a, c := p.b }

/-- The Tiger core on the message words, with given S-boxes (48_tiger R337, R338). -/
def tigerCore (t : TigerBoxes) (acc x : List Word64) : List Word64 :=
  let a0 := acc.getD 0 0
  let b0 := acc.getD 1 0
  let c0 := acc.getD 2 0
  let x2 := tigerSchedule x
  let x3 := tigerSchedule x2
  let r := tigerPass3 t x3 9 (tigerPass2 t x2 7 (tigerPass t x 5 { a := a0, b := b0, c := c0 }))
  [r.a ^^^ a0, r.b - b0, r.c + c0]

/-- `Compress_Tiger(acc, block)` (48_tiger R337). -/
def tigerCompress (acc : List Word64) (block : List Byte) : List Word64 :=
  tigerCore tigerBoxes acc (blockWords (leWords 64 block))

end Sys2Proof.Machine
end

