-- ==== Sys2Proof/Machine/Whirlpool.lean ====
section
/-! DEFINITION. The Whirlpool compression core (47_whirlpool R300 to R310). The 8 x 8 byte matrix is a list of 64 bytes,
byte `(i, j)` at index `8*i + j` (R300). -/

namespace Sys2Proof.Machine

/-- The accumulator words as the 64 state bytes: word `i` is row `i`, big-endian (47_whirlpool R300). -/
def whirlpoolBytes (acc : List Word64) : List Byte := acc.flatMap beBytes

/-- Byte `(i, j)` of a matrix. -/
def whirlpoolAt (m : List Byte) (i j : Nat) : Byte := m.getD (8 * i + j) 0

/-- The matrix whose byte `(i, j)` is `f i j`. -/
def whirlpoolMatrix (f : Nat → Nat → Byte) : List Byte := (List.range 64).map fun n => f (n / 8) (n % 8)

/-- `a << 1` reduced modulo 0x11D when it leaves the byte (47_whirlpool R301). -/
def gfDouble (a : Nat) : Nat :=
  match a / 128 with
  | 0 => a * 2
  | _ + 1 => a * 2 ^^^ 0x11D

/-- The loop of R301 with a bound on its number of turns: `r` is the product so far. -/
def gfMulLoop : Nat → Nat → Nat → Nat → Nat
  | 0, _, _, r => r
  | _ + 1, _, 0, r => r
  | n + 1, a, b + 1, r =>
    match (b + 1) % 2 with
    | 0 => gfMulLoop n (gfDouble a) ((b + 1) / 2) r
    | _ + 1 => gfMulLoop n (gfDouble a) ((b + 1) / 2) (r ^^^ a)

/-- `mul(a, b)` in GF(2^8) modulo 0x11D; a byte `b` needs at most 8 turns of the loop (47_whirlpool R301). -/
def gfMul (a b : Byte) : Byte := BitVec.ofNat 8 (gfMulLoop 8 a.toNat b.toNat 0)

/-- The Whirlpool S-box, rows 0 to 3 (47_whirlpool R303). -/
def whirlpoolSboxPart0 : List Byte := [
  0x18, 0x23, 0xC6, 0xE8, 0x87, 0xB8, 0x01, 0x4F, 0x36, 0xA6, 0xD2, 0xF5, 0x79, 0x6F, 0x91, 0x52,
  0x60, 0xBC, 0x9B, 0x8E, 0xA3, 0x0C, 0x7B, 0x35, 0x1D, 0xE0, 0xD7, 0xC2, 0x2E, 0x4B, 0xFE, 0x57,
  0x15, 0x77, 0x37, 0xE5, 0x9F, 0xF0, 0x4A, 0xDA, 0x58, 0xC9, 0x29, 0x0A, 0xB1, 0xA0, 0x6B, 0x85,
  0xBD, 0x5D, 0x10, 0xF4, 0xCB, 0x3E, 0x05, 0x67, 0xE4, 0x27, 0x41, 0x8B, 0xA7, 0x7D, 0x95, 0xD8]

/-- The Whirlpool S-box, rows 4 to 7 (47_whirlpool R303). -/
def whirlpoolSboxPart1 : List Byte := [
  0xFB, 0xEE, 0x7C, 0x66, 0xDD, 0x17, 0x47, 0x9E, 0xCA, 0x2D, 0xBF, 0x07, 0xAD, 0x5A, 0x83, 0x33,
  0x63, 0x02, 0xAA, 0x71, 0xC8, 0x19, 0x49, 0xD9, 0xF2, 0xE3, 0x5B, 0x88, 0x9A, 0x26, 0x32, 0xB0,
  0xE9, 0x0F, 0xD5, 0x80, 0xBE, 0xCD, 0x34, 0x48, 0xFF, 0x7A, 0x90, 0x5F, 0x20, 0x68, 0x1A, 0xAE,
  0xB4, 0x54, 0x93, 0x22, 0x64, 0xF1, 0x73, 0x12, 0x40, 0x08, 0xC3, 0xEC, 0xDB, 0xA1, 0x8D, 0x3D]

/-- The Whirlpool S-box, rows 8 to 11 (47_whirlpool R303). -/
def whirlpoolSboxPart2 : List Byte := [
  0x97, 0x00, 0xCF, 0x2B, 0x76, 0x82, 0xD6, 0x1B, 0xB5, 0xAF, 0x6A, 0x50, 0x45, 0xF3, 0x30, 0xEF,
  0x3F, 0x55, 0xA2, 0xEA, 0x65, 0xBA, 0x2F, 0xC0, 0xDE, 0x1C, 0xFD, 0x4D, 0x92, 0x75, 0x06, 0x8A,
  0xB2, 0xE6, 0x0E, 0x1F, 0x62, 0xD4, 0xA8, 0x96, 0xF9, 0xC5, 0x25, 0x59, 0x84, 0x72, 0x39, 0x4C,
  0x5E, 0x78, 0x38, 0x8C, 0xD1, 0xA5, 0xE2, 0x61, 0xB3, 0x21, 0x9C, 0x1E, 0x43, 0xC7, 0xFC, 0x04]

/-- The Whirlpool S-box, rows 12 to 15 (47_whirlpool R303). -/
def whirlpoolSboxPart3 : List Byte := [
  0x51, 0x99, 0x6D, 0x0D, 0xFA, 0xDF, 0x7E, 0x24, 0x3B, 0xAB, 0xCE, 0x11, 0x8F, 0x4E, 0xB7, 0xEB,
  0x3C, 0x81, 0x94, 0xF7, 0xB9, 0x13, 0x2C, 0xD3, 0xE7, 0x6E, 0xC4, 0x03, 0x56, 0x44, 0x7F, 0xA9,
  0x2A, 0xBB, 0xC1, 0x53, 0xDC, 0x0B, 0x9D, 0x6C, 0x31, 0x74, 0xF6, 0x46, 0xAC, 0x89, 0x14, 0xE1,
  0x16, 0x3A, 0x69, 0x09, 0x70, 0xB6, 0xD0, 0xED, 0xCC, 0x42, 0x98, 0xA4, 0x28, 0x5C, 0xF8, 0x86]

/-- The Whirlpool S-box `S` (47_whirlpool R303). -/
def whirlpoolSbox : List Byte :=
  whirlpoolSboxPart0 ++ whirlpoolSboxPart1 ++ whirlpoolSboxPart2 ++ whirlpoolSboxPart3

/-- `gamma`: the S-box on every byte (47_whirlpool R304). -/
def whirlpoolGamma (m : List Byte) : List Byte := m.map fun x => whirlpoolSbox.getD x.toNat 0

/-- `pi`: column `j` is shifted cyclically down by `j` places (47_whirlpool R304). -/
def whirlpoolPi (m : List Byte) : List Byte := whirlpoolMatrix fun i j => whirlpoolAt m ((i + 8 - j) % 8) j

/-- The first row `C` of the circulant matrix (47_whirlpool R304). -/
def whirlpoolC : List Byte := [0x01, 0x01, 0x04, 0x01, 0x08, 0x05, 0x02, 0x09]

/-- `theta`: each row times the circulant matrix (47_whirlpool R304). -/
def whirlpoolTheta (m : List Byte) : List Byte :=
  whirlpoolMatrix fun i j =>
    (List.range 8).foldl (fun x t => x ^^^ gfMul (whirlpoolAt m i t) (whirlpoolC.getD ((j + 8 - t) % 8) 0)) 0

/-- `sigma[k]`: the key addition, byte by byte (47_whirlpool R304). -/
def whirlpoolSigma (k m : List Byte) : List Byte := List.zipWith (· ^^^ ·) m k

/-- `rho[k]` (47_whirlpool R304). -/
def whirlpoolRho (k m : List Byte) : List Byte := whirlpoolSigma k (whirlpoolTheta (whirlpoolPi (whirlpoolGamma m)))

/-- The round constant `c^r`, for `r` in 1 to 10: row 0 from the S-box, the other rows zero (47_whirlpool R305). -/
def whirlpoolRC (r : Nat) : List Byte := (whirlpoolSbox.drop (8 * (r - 1))).take 8 ++ List.replicate 56 0

/-- Round `r` of the key schedule and of the data path, on (key, state) (47_whirlpool R306). -/
def whirlpoolRound (ks : List Byte × List Byte) (r : Nat) : List Byte × List Byte :=
  let k := whirlpoolRho (whirlpoolRC r) ks.1
  (k, whirlpoolRho k ks.2)

/-- The block cipher `W[K](m)` (47_whirlpool R306). -/
def whirlpoolCipher (key m : List Byte) : List Byte :=
  ((List.range' 1 10).foldl whirlpoolRound (key, whirlpoolSigma key m)).2

/-- `IV(Whirlpool)` (47_whirlpool R307). -/
def whirlpoolIV : List Word64 := List.replicate 8 0

/-- `Compress_WP(acc, block) = W[H](m) ^ H ^ m` (47_whirlpool R308). -/
def whirlpoolCompress (acc : List Word64) (block : List Byte) : List Word64 :=
  let h := whirlpoolBytes acc
  blockWords (beWords 64 (whirlpoolSigma block (whirlpoolSigma h (whirlpoolCipher h block))))

end Sys2Proof.Machine
end

