-- ==== Sys2Proof/Machine/Padding.lean ====
section
/-! DEFINITION. The algorithm descriptors, the initial values, the dispatch to the cores, the padding tails and the output
(42_padding R150 to R162; 41_engine R119, R133). -/

namespace Sys2Proof.Machine

/-- A byte order: of word assembly or of a length field (42_padding R150). -/
inductive ByteOrder where
  | le
  | be
  deriving DecidableEq, Repr

/-- An Algorithm Descriptor (42_padding R150). -/
structure Descriptor where
  blockSize : Nat
  wordBits : Nat
  accWords : Nat
  wordOrder : ByteOrder
  marker : Byte
  trailer : List Byte
  lenBytes : Nat
  lenOrder : ByteOrder
  digestBits : Nat
  deriving DecidableEq, Repr

/-- The byte of `TIGER_MARKER` (48_tiger R340). -/
def tigerMarkerByte : TigerMarker → Byte
  | .marker01 => 0x01
  | .marker80 => 0x80

/-- `HavalCfg(passes, hlen) = [c0, c1]` (42_padding R157). -/
def havalCfg (passes hlen : Nat) : List Byte :=
  [BitVec.ofNat 8 ((hlen &&& 0x3) <<< 6 ||| (passes &&& 0x7) <<< 3 ||| 0x01), BitVec.ofNat 8 ((hlen >>> 2) &&& 0xFF)]

/-- The descriptor of an algorithm (42_padding R151, R152), row by row: block size, word bits, accumulator words, word
order, marker, trailer, length bytes, length order, digest bits. -/
def descriptor (p : Params) : Alg → Descriptor
  | .md5 => ⟨64, 32, 4, .le, 0x80, [], 8, .le, 128⟩
  | .sha1 => ⟨64, 32, 5, .be, 0x80, [], 8, .be, 160⟩
  | .sha256 => ⟨64, 32, 8, .be, 0x80, [], 8, .be, 256⟩
  | .sha384 => ⟨128, 64, 8, .be, 0x80, [], 16, .be, 384⟩
  | .sha512 => ⟨128, 64, 8, .be, 0x80, [], 16, .be, 512⟩
  | .ripemd128 => ⟨64, 32, 4, .le, 0x80, [], 8, .le, 128⟩
  | .ripemd160 => ⟨64, 32, 5, .le, 0x80, [], 8, .le, 160⟩
  | .ripemd256 => ⟨64, 32, 8, .le, 0x80, [], 8, .le, 256⟩
  | .whirlpool => ⟨64, 64, 8, .be, 0x80, [], Config.whirlpoolLenBytes, .be, 512⟩
  | .tiger => ⟨64, 64, 3, .le, tigerMarkerByte p.tigerMarker, [], 8, .le, 192⟩
  | .haval passes hlen =>
    ⟨128, 32, 8, .le, 0x01, havalCfg (havalPassCount passes) (havalBits hlen), 8, .le, havalBits hlen⟩

/-- `desc.block_size`, which no open parameter enters (42_padding R151). -/
def blockSize (a : Alg) : Nat := (descriptor Params.spec a).blockSize

/-- `IV(desc)` (41_engine R119). -/
def initialAcc : Alg → Acc
  | .md5 => .w32 md5IV
  | .sha1 => .w32 sha1IV
  | .sha256 => .w32 sha256IV
  | .sha384 => .w64 sha384IV
  | .sha512 => .w64 sha512IV
  | .ripemd128 => .w32 ripemd128IV
  | .ripemd160 => .w32 ripemd160IV
  | .ripemd256 => .w32 ripemd256IV
  | .whirlpool => .w64 whirlpoolIV
  | .tiger => .w64 tigerIV
  | .haval _ _ => .w32 havalIV

/-- The 32-bit words of an accumulator. -/
def accWords32 : Acc → List Word32
  | .w32 ws => ws
  | .w64 _ => []

/-- The 64-bit words of an accumulator. -/
def accWords64 : Acc → List Word64
  | .w32 _ => []
  | .w64 ws => ws

/-- `Compress(desc, acc, block)`: exactly one core for each algorithm (41_engine R133). -/
def compress (a : Alg) (acc : Acc) (block : List Byte) : Acc :=
  match a with
  | .md5 => .w32 (md5Compress (accWords32 acc) block)
  | .sha1 => .w32 (sha1Compress (accWords32 acc) block)
  | .sha256 => .w32 (sha256Compress (accWords32 acc) block)
  | .sha384 => .w64 (sha512Compress (accWords64 acc) block)
  | .sha512 => .w64 (sha512Compress (accWords64 acc) block)
  | .ripemd128 => .w32 (ripemd128Compress (accWords32 acc) block)
  | .ripemd160 => .w32 (ripemd160Compress (accWords32 acc) block)
  | .ripemd256 => .w32 (ripemd256Compress (accWords32 acc) block)
  | .whirlpool => .w64 (whirlpoolCompress (accWords64 acc) block)
  | .tiger => .w64 (tigerCompress (accWords64 acc) block)
  | .haval passes _ => .w32 (havalCompress passes (accWords32 acc) block)

/-- Compress the first `k` blocks of a byte sequence, in order (41_engine R124, R126). -/
def compressBlocks (a : Alg) : Nat → Acc → List Byte → Acc
  | 0, acc, _ => acc
  | k + 1, acc, data => compressBlocks a k (compress a acc (data.take (blockSize a))) (data.drop (blockSize a))

/-- `TotalBits(count, buffered)` (42_padding R153). -/
def totalBits (count buffered : Nat) : Nat := 8 * (count + buffered)

/-- `LenField(desc, bits)`, modulo `2^(8L)` (42_padding R153, R154). -/
def lenField (d : Descriptor) (bits : Nat) : List Byte :=
  match d.lenOrder with
  | .le => leBytesOf d.lenBytes (bits % 2 ^ (8 * d.lenBytes))
  | .be => beBytesOf d.lenBytes (bits % 2 ^ (8 * d.lenBytes))

/-- The number of zero bytes of the tail: the least `k` with `(b + 1 + k + reserved) mod bs = 0`, where `reserved` counts
the trailer and the length field (42_padding R155, R156). -/
def padZeros (bs b reserved : Nat) : Nat := (bs - (b + 1 + reserved) % bs) % bs

/-- `PadTail(desc, T, count)` (42_padding R155; R156 for HAVAL, whose trailer is `HavalCfg`). -/
def padTail (p : Params) (a : Alg) (t : List Byte) (count : Nat) : List Byte :=
  let d := descriptor p a
  t ++ [d.marker] ++ List.replicate (padZeros d.blockSize t.length (d.trailer.length + d.lenBytes)) 0 ++ d.trailer ++
    lenField d (totalBits count t.length)

/-- The words `Output` serialises: HAVAL folds a copy first (42_padding R159; 49_haval R371). -/
def outputAcc (a : Alg) (acc : Acc) : Acc :=
  match a with
  | .haval _ hlen => .w32 (havalFold (accWords32 acc) hlen)
  | _ => acc

/-- The accumulator's words as bytes, in index order, each in the given byte order (42_padding R159). -/
def serialize (o : ByteOrder) (acc : Acc) : List Byte :=
  match o, acc with
  | .le, .w32 ws => ws.flatMap leBytes
  | .be, .w32 ws => ws.flatMap beBytes
  | .le, .w64 ws => ws.flatMap leBytes
  | .be, .w64 ws => ws.flatMap beBytes

/-- `Output(desc, acc)` (42_padding R159). -/
def output (p : Params) (a : Alg) (acc : Acc) : List Byte :=
  (serialize (descriptor p a).wordOrder (outputAcc a acc)).take ((descriptor p a).digestBits / 8)

end Sys2Proof.Machine
end

