-- ==== Sys2Proof/Machine/Engine.lean ====
section
/-! DEFINITION. The streaming buffer engine on one hash instance: Init, TopOff, Blocks and finalize (41_engine R119, R122 to
R126). -/

namespace Sys2Proof.Machine

/-- `buffered` (10_state R23, R36). -/
def buffered (i : HashInst) : Nat := i.buf.length

/-- `Init(desc)` (41_engine R119). -/
def hashInit (a : Alg) : HashInst := { desc := a, phase := .active, buf := [], count := 0, acc := initialAcc a }

/-- `Blocks(i, DATA, p)` on what is left of DATA: the loop runs once for each whole block, then buffers the remainder
(41_engine R124). -/
def hashBlocks (i : HashInst) (data : List Byte) : HashInst :=
  let bs := blockSize i.desc
  let k := data.length / bs
  { i with acc := compressBlocks i.desc k i.acc data, count := i.count + k * bs, buf := data.drop (k * bs) }

/-- `TopOff(i, DATA)`: the instance it leaves, and the DATA left for Blocks, or `none` for DONE (41_engine R123). -/
def topOff (i : HashInst) (data : List Byte) : HashInst × Option (List Byte) :=
  let bs := blockSize i.desc
  let b := buffered i
  if b + data.length < bs then ({ i with buf := i.buf ++ data }, none)
  else if 0 < b then
    ({ i with acc := compress i.desc i.acc (i.buf ++ data.take (bs - b)), count := i.count + bs, buf := [] },
     some (data.drop (bs - b)))
  else (i, some data)

/-- The effect of UPDATE on an active hash instance (41_engine R122). -/
def hashUpdate (i : HashInst) (data : List Byte) : HashInst :=
  match topOff i data with
  | (j, none) => j
  | (j, some rest) => hashBlocks j rest

/-- The final block or blocks FINALIZE compresses (41_engine R126). -/
def hashTail (p : Params) (i : HashInst) : List Byte := padTail p i.desc i.buf i.count

/-- The accumulator after the last final block (41_engine R126). -/
def hashFinalAcc (p : Params) (i : HashInst) : Acc :=
  compressBlocks i.desc ((hashTail p i).length / blockSize i.desc) i.acc (hashTail p i)

/-- The instance FINALIZE leaves: `count`, `buffered` and `buf` are unchanged (41_engine R126; 42_padding R161). -/
def hashFinalized (p : Params) (i : HashInst) : HashInst := { i with acc := hashFinalAcc p i, phase := .finalized }

/-- The digest FINALIZE answers (41_engine R126). -/
def hashDigest (p : Params) (i : HashInst) : List Byte := output p i.desc (hashFinalAcc p i)

end Sys2Proof.Machine
end

