-- ==== Sys2Proof/Machine/Flags.lean ====
section
/-! DEFINITION. The one flag of an instance, its phase (10_state R26), and the STATUS word, a read-only view of a slot
(10_state R34). -/

namespace Sys2Proof.Machine

/-- FINALIZED as one bit (10_state R34). -/
def phaseBit (p : Phase) : BitVec 1 :=
  match p with
  | .active => 0
  | .finalized => 1

/-- The algorithm id of a descriptor key (30_encoding R77). -/
def algId : Alg → Byte
  | .md5 => 0x01
  | .sha1 => 0x02
  | .sha256 => 0x03
  | .sha384 => 0x04
  | .sha512 => 0x05
  | .ripemd128 => 0x06
  | .ripemd160 => 0x07
  | .ripemd256 => 0x08
  | .whirlpool => 0x09
  | .tiger => 0x0A
  | .haval _ _ => 0x0B

/-- PASSES (10_state R34). -/
def statusPasses : Alg → Nibble
  | .haval passes _ => BitVec.ofNat 4 (havalPassCount passes)
  | _ => 0

/-- LENCODE of a hash slot (10_state R34). -/
def statusLenCode : Alg → Nibble
  | .haval _ hlen => BitVec.ofNat 4 (havalBits hlen / 32)
  | _ => 0

/-- LENCODE of a CRC slot: bit 20 of the word is `reflect` (10_state R34). -/
def statusReflect (reflect : Bool) : Nibble := if reflect then 1 else 0

/-- The STATUS word from its fields, most significant first: COUNT_LO, BUFFERED, LENCODE, PASSES, ALG_OR_ORDER, reserved,
IS_CRC, FINALIZED, CONSTRUCTED (10_state R34). -/
def packStatus (countLo : Word32) (buffered : Byte) (lenCode passes : Nibble) (algOrOrder : Byte)
    (isCrc finalized constructed : BitVec 1) : Word64 :=
  countLo ++ buffered ++ lenCode ++ passes ++ algOrOrder ++ (0 : BitVec 5) ++ isCrc ++ finalized ++ constructed

/-- `StatusWord(slot)` (10_state R34). -/
def statusWord : Slot → Word64
  | .empty => packStatus 0 0 0 0 0 0 0 0
  | .hash i =>
    packStatus (BitVec.ofNat 32 i.count) (BitVec.ofNat 8 (buffered i)) (statusLenCode i.desc) (statusPasses i.desc)
      (algId i.desc) 0 (phaseBit i.phase) 1
  | .crc c =>
    packStatus 0 0 (statusReflect c.params.reflect) 0 (BitVec.ofNat 8 (orderBits c.params.order)) 1 (phaseBit c.phase) 1

end Sys2Proof.Machine
end

