-- ==== Sys2Proof/Machine/Operands.lean ====
section
/-! DEFINITION. The operand forms: the slot index, the HAVAL parameters and the CRC parameter record, with the checks on
each (30_encoding R74 to R79; 43_crc R185). -/

namespace Sys2Proof.Machine

/-- The slot index a SLOT field names: unsigned, zero-extended (30_encoding R74, R75). -/
def slotIndex (slot : Byte) : Nat := slot.toNat

/-- The HAVAL pass count the B field holds, read directly (30_encoding R75, R77). -/
def havalPassesOf (b : Nibble) : Option HavalPasses :=
  match b.toNat with
  | 3 => some .three
  | 4 => some .four
  | 5 => some .five
  | _ => none

/-- The HAVAL output length the C field codes as `hlen / 32` (30_encoding R78). -/
def havalLenOf (c : Nibble) : Option HavalLen :=
  match c.toNat with
  | 4 => some .b128
  | 5 => some .b160
  | 6 => some .b192
  | 7 => some .b224
  | 8 => some .b256
  | _ => none

/-- The descriptor key of a CONSTRUCT of HAVAL, or CONFIG_HAVAL (30_encoding R78; 41_engine R120). -/
def havalDesc (b c : Nibble) : Except ErrorCode Alg :=
  match havalPassesOf b, havalLenOf c with
  | some passes, some hlen => .ok (.haval passes hlen)
  | _, _ => .error .configHaval

/-- The descriptor key of a CONSTRUCT of an algorithm without parameters, or CONFIG_PARAM (41_engine R120). -/
def plainDesc (a : Alg) (b c : Nibble) : Except ErrorCode Alg :=
  if b = 0 ∧ c = 0 then .ok a else .error .configParam

/-- The order the A field holds, in bits (30_encoding R75, R79). -/
def crcOrderOf (a : Byte) : Option CrcOrder :=
  match a.toNat with
  | 8 => some .o8
  | 16 => some .o16
  | 24 => some .o24
  | 32 => some .o32
  | 40 => some .o40
  | 48 => some .o48
  | 56 => some .o56
  | 64 => some .o64
  | _ => none

/-- The parameter record of a CRC_CONSTRUCT, or its configuration error, in the order of 43_crc R185
(30_encoding R79). -/
def crcParamsOf (a : Byte) (reflect : Bool) (poly init xorout : Word64) : Except ErrorCode CrcParams :=
  match crcOrderOf a with
  | none => .error .configCrcOrder
  | some order =>
    if poly.toNat < 2 ^ orderBits order ∧ init.toNat < 2 ^ orderBits order ∧ xorout.toNat < 2 ^ orderBits order then
      .ok { order := order, poly := poly, init := init, xorout := xorout, reflect := reflect }
    else .error .configCrcValue

end Sys2Proof.Machine
end

