-- ==== Sys2Proof/Machine/Ops.lean ====
section
/-! DEFINITION. The named operations over the state: slots, the response stream, completing a command, fault entry and
device reset (30_encoding R84 to R86; 41_engine R131; 60_exceptions R404; 70_reset R440). -/

namespace Sys2Proof.Machine

/-- What a step answers. -/
abbrev StepOutcome := Host.Outcome State Fault Refusal

/-- `N_SLOTS` (00_scope R9). -/
def State.nSlots (s : State) : Nat := s.slots.length

/-- `slot[k]` (10_state R20). -/
def State.slotAt (s : State) (k : Nat) : Slot := s.slots.getD k .empty

/-- `slot[k] <- v` (00_scope R13). -/
def State.setSlot (s : State) (k : Nat) (v : Slot) : State := { s with slots := s.slots.set k v }

/-- `respond(bytes)` (30_encoding R86). -/
def State.respond (s : State) (bytes : List Byte) : State := { s with responses := s.responses ++ bytes }

/-- The common epilogue (41_engine R131). -/
def State.advance (s : State) : State := { s with ncmd := s.ncmd + 1 }

/-- The end of a command that completes: its response, the status byte 0x00 before any payload (30_encoding R84), and the
epilogue (41_engine R131). -/
def complete (s : State) (payload : List Byte) : StepOutcome := .next (s.respond (0x00 :: payload)).advance

/-- The byte of an error code (60_exceptions R401). -/
def errorByte : ErrorCode → Byte
  | .illegalCommand => 0x01
  | .badSlot => 0x02
  | .slotEmpty => 0x03
  | .slotBusy => 0x04
  | .configAlg => 0x10
  | .configHaval => 0x11
  | .configParam => 0x12
  | .configCrcOrder => 0x13
  | .configCrcValue => 0x14
  | .usageFinalizeTwice => 0x20
  | .usageUpdateAfterFinalize => 0x21

/-- The state after fault entry: the fault record saves the code, the SLOT field and `ncmd`, the one response is the code's
byte, and nothing else changes (60_exceptions R404; 30_encoding R85). -/
def State.faulted (s : State) (e : ErrorCode) (slot : Byte) : State :=
  { s with fault := some { code := e, slot := slot, atNcmd := s.ncmd }, responses := s.responses ++ [errorByte e] }

/-- `raise E(s)`: fault entry is a next state; the halt is what `step` does in it (60_exceptions R404, log entry 5). -/
def raise (s : State) (e : ErrorCode) (slot : Byte) : StepOutcome := .next (s.faulted e slot)

/-- Device reset, the only way out of the fault state; there is no trap return (70_reset R440; 60_exceptions R407). The
number of slots and the open parameters are the device's own and stay. -/
def deviceReset (s : State) : State := State.resetOf s.nSlots s.params

/-- The host sends bytes on the command stream (70_reset R450). -/
def hostSend (s : State) (bytes : List Byte) : State := { s with commands := s.commands ++ bytes }

/-- What every command does before its own rule: in the fault state the engine has no step (60_exceptions R404), and a slot
number that is out of range raises BAD_SLOT (30_encoding R74; 60_exceptions R405 check 3). -/
def onSlot (s : State) (slot : Byte) (rule : Slot → StepOutcome) : StepOutcome :=
  match s.fault with
  | some r => .fault (.halted r)
  | none => if slotIndex slot < s.nSlots then rule (s.slotAt (slotIndex slot)) else raise s .badSlot slot

/-- The rule of a command that binds an empty slot: SLOT_BUSY before its own checks (60_exceptions R405 check 4). -/
def onEmptySlot (s : State) (slot : Byte) (rule : StepOutcome) : StepOutcome :=
  onSlot s slot fun v =>
    match v with
    | .empty => rule
    | .hash _ => raise s .slotBusy slot
    | .crc _ => raise s .slotBusy slot

/-- The rule of a command that needs an engine in its slot: SLOT_EMPTY before its own checks (60_exceptions R405
check 4). -/
def onBoundSlot (s : State) (slot : Byte) (onHash : HashInst → StepOutcome) (onCrc : CrcInst → StepOutcome) :
    StepOutcome :=
  onSlot s slot fun v =>
    match v with
    | .empty => raise s .slotEmpty slot
    | .hash i => onHash i
    | .crc c => onCrc c

/-- Write the slot a command names and complete it (41_engine R131). -/
def finishWith (s : State) (slot : Byte) (v : Slot) (payload : List Byte) : StepOutcome :=
  complete (s.setSlot (slotIndex slot) v) payload

end Sys2Proof.Machine
end

