-- ==== Sys2Proof/Machine/Commands.lean ====
section
/-! DEFINITION. The meanings of RESET, UPDATE, FINALIZE, COMPUTE, STATUS and DESTROY (41_engine R121 to R129; 43_crc R187 to
R190). -/

namespace Sys2Proof.Machine

/-- RESET s (41_engine R121; 43_crc R187). -/
def execReset (slot : Byte) (s : State) : StepOutcome :=
  onBoundSlot s slot
    (fun i => finishWith s slot (.hash (hashInit i.desc)) [])
    (fun c => finishWith s slot (.crc (crcReset s.params c)) [])

/-- UPDATE s, data (41_engine R122; 43_crc R188). -/
def execUpdate (slot : Byte) (data : List Byte) (s : State) : StepOutcome :=
  onBoundSlot s slot
    (fun i =>
      match i.phase with
      | .finalized => raise s .usageUpdateAfterFinalize slot
      | .active => finishWith s slot (.hash (hashUpdate i data)) [])
    (fun c =>
      match c.phase with
      | .finalized => raise s .usageUpdateAfterFinalize slot
      | .active => finishWith s slot (.crc (crcUpdate c data)) [])

/-- FINALIZE s (41_engine R126; 43_crc R189). -/
def execFinalize (slot : Byte) (s : State) : StepOutcome :=
  onBoundSlot s slot
    (fun i =>
      match i.phase with
      | .finalized => raise s .usageFinalizeTwice slot
      | .active => finishWith s slot (.hash (hashFinalized s.params i)) (hashDigest s.params i))
    (fun c =>
      match c.phase with
      | .finalized => raise s .usageFinalizeTwice slot
      | .active => finishWith s slot (.crc (crcFinalized c)) (crcResult c))

/-- COMPUTE s, data: RESET, UPDATE and FINALIZE as one step with one response (41_engine R127; 43_crc R190). -/
def execCompute (slot : Byte) (data : List Byte) (s : State) : StepOutcome :=
  onBoundSlot s slot
    (fun i =>
      let j := hashUpdate (hashInit i.desc) data
      finishWith s slot (.hash (hashFinalized s.params j)) (hashDigest s.params j))
    (fun c =>
      let d := crcUpdate (crcReset s.params c) data
      finishWith s slot (.crc (crcFinalized d)) (crcResult d))

/-- STATUS s: legal on any slot (41_engine R128). -/
def execStatus (slot : Byte) (s : State) : StepOutcome :=
  onSlot s slot fun v => complete s (beBytes (statusWord v))

/-- DESTROY s (41_engine R129). -/
def execDestroy (slot : Byte) (s : State) : StepOutcome :=
  onBoundSlot s slot (fun _ => finishWith s slot .empty []) (fun _ => finishWith s slot .empty [])

end Sys2Proof.Machine
end

