-- ==== Sys2Proof/Machine/Construct.lean ====
section
/-! DEFINITION. The meanings of the CONSTRUCT rows (41_engine R120) and of CRC_CONSTRUCT (43_crc R186). -/

namespace Sys2Proof.Machine

/-- CONSTRUCT once the descriptor key, or its configuration error, is known (41_engine R120). -/
def constructWith (s : State) (slot : Byte) (desc : Except ErrorCode Alg) : StepOutcome :=
  onEmptySlot s slot <|
    match desc with
    | .error e => raise s e slot
    | .ok a => finishWith s slot (.hash (hashInit a)) []

/-- CONSTRUCT s, MD5 (41_engine R120). -/
def execConstructMd5 (slot : Byte) (b c : Nibble) (s : State) : StepOutcome := constructWith s slot (plainDesc .md5 b c)

/-- CONSTRUCT s, SHA1 (41_engine R120). -/
def execConstructSha1 (slot : Byte) (b c : Nibble) (s : State) : StepOutcome := constructWith s slot (plainDesc .sha1 b c)

/-- CONSTRUCT s, SHA256 (41_engine R120). -/
def execConstructSha256 (slot : Byte) (b c : Nibble) (s : State) : StepOutcome :=
  constructWith s slot (plainDesc .sha256 b c)

/-- CONSTRUCT s, SHA384 (41_engine R120). -/
def execConstructSha384 (slot : Byte) (b c : Nibble) (s : State) : StepOutcome :=
  constructWith s slot (plainDesc .sha384 b c)

/-- CONSTRUCT s, SHA512 (41_engine R120). -/
def execConstructSha512 (slot : Byte) (b c : Nibble) (s : State) : StepOutcome :=
  constructWith s slot (plainDesc .sha512 b c)

/-- CONSTRUCT s, RIPEMD128 (41_engine R120). -/
def execConstructRipemd128 (slot : Byte) (b c : Nibble) (s : State) : StepOutcome :=
  constructWith s slot (plainDesc .ripemd128 b c)

/-- CONSTRUCT s, RIPEMD160 (41_engine R120). -/
def execConstructRipemd160 (slot : Byte) (b c : Nibble) (s : State) : StepOutcome :=
  constructWith s slot (plainDesc .ripemd160 b c)

/-- CONSTRUCT s, RIPEMD256 (41_engine R120). -/
def execConstructRipemd256 (slot : Byte) (b c : Nibble) (s : State) : StepOutcome :=
  constructWith s slot (plainDesc .ripemd256 b c)

/-- CONSTRUCT s, WHIRLPOOL (41_engine R120). -/
def execConstructWhirlpool (slot : Byte) (b c : Nibble) (s : State) : StepOutcome :=
  constructWith s slot (plainDesc .whirlpool b c)

/-- CONSTRUCT s, TIGER (41_engine R120). -/
def execConstructTiger (slot : Byte) (b c : Nibble) (s : State) : StepOutcome :=
  constructWith s slot (plainDesc .tiger b c)

/-- CONSTRUCT s, HAVAL, passes, bits (41_engine R120). -/
def execConstructHaval (slot : Byte) (b c : Nibble) (s : State) : StepOutcome := constructWith s slot (havalDesc b c)

/-- CONSTRUCT with an algorithm id of no row, which the decoder rejects by name: CONFIG_ALG after the slot checks
(30_encoding R77; 60_exceptions R405, log entry 9). -/
def constructUnknown (slot : Byte) (s : State) : StepOutcome := constructWith s slot (.error .configAlg)

/-- CRC_CONSTRUCT s, order, poly, init, xorout, reflect: the cache is read and written only after every check
(43_crc R186). -/
def execCrcConstruct (slot order : Byte) (reflect : Bool) (poly init xorout : Word64) (s : State) : StepOutcome :=
  onEmptySlot s slot <|
    match crcParamsOf order reflect poly init xorout with
    | .error e => raise s e slot
    | .ok p =>
      let found := cacheLookup s.cache p
      finishWith { s with cache := found.2 } slot (.crc (crcInit s.params p found.1)) []

end Sys2Proof.Machine
end

