-- ==== Sys2Proof/Syntax.lean ====
section
/-! DEFINITION. The commands of the device: one constructor per row of spec/opcode_table.json. -/

namespace Sys2Proof

/-- One command (30_encoding R70 to R73). `slot` is the SLOT field, `b` and `c` the header's B and C fields. A CONSTRUCT
carries B and C because a nonzero B or C is no illegal encoding: the command decodes and its own rule raises the
configuration error (30_encoding R76; 41_engine R120). Words of OPC 0x01 to 0x08 that are no row (reserved fields,
unknown algorithm ids) are rejected by name in Decode.lean. -/
inductive Instr where
  /-- CONSTRUCT s, MD5 -/
  | constructMd5 (slot : Byte) (b c : Nibble)
  /-- CONSTRUCT s, SHA1 -/
  | constructSha1 (slot : Byte) (b c : Nibble)
  /-- CONSTRUCT s, SHA256 -/
  | constructSha256 (slot : Byte) (b c : Nibble)
  /-- CONSTRUCT s, SHA384 -/
  | constructSha384 (slot : Byte) (b c : Nibble)
  /-- CONSTRUCT s, SHA512 -/
  | constructSha512 (slot : Byte) (b c : Nibble)
  /-- CONSTRUCT s, RIPEMD128 -/
  | constructRipemd128 (slot : Byte) (b c : Nibble)
  /-- CONSTRUCT s, RIPEMD160 -/
  | constructRipemd160 (slot : Byte) (b c : Nibble)
  /-- CONSTRUCT s, RIPEMD256 -/
  | constructRipemd256 (slot : Byte) (b c : Nibble)
  /-- CONSTRUCT s, WHIRLPOOL -/
  | constructWhirlpool (slot : Byte) (b c : Nibble)
  /-- CONSTRUCT s, TIGER -/
  | constructTiger (slot : Byte) (b c : Nibble)
  /-- CONSTRUCT s, HAVAL, passes, bits: B is the pass count, C the length code (30_encoding R78) -/
  | constructHaval (slot : Byte) (b c : Nibble)
  /-- CRC_CONSTRUCT s, order, poly, init, xorout, reflect: `order` is the A field, `reflect` is C[0] (30_encoding R79) -/
  | crcConstruct (slot : Byte) (order : Byte) (reflect : Bool) (poly init xorout : Word64)
  /-- RESET s -/
  | reset (slot : Byte)
  /-- UPDATE s, data: LEN is the length of `data` (30_encoding R80) -/
  | update (slot : Byte) (data : List Byte)
  /-- FINALIZE s -/
  | finalize (slot : Byte)
  /-- COMPUTE s, data -/
  | compute (slot : Byte) (data : List Byte)
  /-- STATUS s -/
  | status (slot : Byte)
  /-- DESTROY s -/
  | destroy (slot : Byte)
  deriving DecidableEq, Repr

/-- The SLOT field of a command (30_encoding R74). -/
def Instr.slot : Instr → Byte
  | .constructMd5 s _ _ => s
  | .constructSha1 s _ _ => s
  | .constructSha256 s _ _ => s
  | .constructSha384 s _ _ => s
  | .constructSha512 s _ _ => s
  | .constructRipemd128 s _ _ => s
  | .constructRipemd160 s _ _ => s
  | .constructRipemd256 s _ _ => s
  | .constructWhirlpool s _ _ => s
  | .constructTiger s _ _ => s
  | .constructHaval s _ _ => s
  | .crcConstruct s _ _ _ _ _ => s
  | .reset s => s
  | .update s _ => s
  | .finalize s => s
  | .compute s _ => s
  | .status s => s
  | .destroy s => s

end Sys2Proof
end

