-- ==== Sys2Proof/Machine/Dispatch.lean ====
section
/-! DEFINITION. The dispatch of a decoded command to its meaning (41_engine R120 to R129; 43_crc R186). -/

namespace Sys2Proof.Machine

def exec (i : Instr) (s : State) : Host.Outcome State Fault Refusal :=
  match i with
  | .constructMd5 slot b c => Sys2Proof.Machine.execConstructMd5 slot b c s
  | .constructSha1 slot b c => Sys2Proof.Machine.execConstructSha1 slot b c s
  | .constructSha256 slot b c => Sys2Proof.Machine.execConstructSha256 slot b c s
  | .constructSha384 slot b c => Sys2Proof.Machine.execConstructSha384 slot b c s
  | .constructSha512 slot b c => Sys2Proof.Machine.execConstructSha512 slot b c s
  | .constructRipemd128 slot b c => Sys2Proof.Machine.execConstructRipemd128 slot b c s
  | .constructRipemd160 slot b c => Sys2Proof.Machine.execConstructRipemd160 slot b c s
  | .constructRipemd256 slot b c => Sys2Proof.Machine.execConstructRipemd256 slot b c s
  | .constructWhirlpool slot b c => Sys2Proof.Machine.execConstructWhirlpool slot b c s
  | .constructTiger slot b c => Sys2Proof.Machine.execConstructTiger slot b c s
  | .constructHaval slot b c => Sys2Proof.Machine.execConstructHaval slot b c s
  | .crcConstruct slot order reflect poly init xorout => Sys2Proof.Machine.execCrcConstruct slot order reflect poly init xorout s
  | .reset slot => Sys2Proof.Machine.execReset slot s
  | .update slot data => Sys2Proof.Machine.execUpdate slot data s
  | .finalize slot => Sys2Proof.Machine.execFinalize slot s
  | .compute slot data => Sys2Proof.Machine.execCompute slot data s
  | .status slot => Sys2Proof.Machine.execStatus slot s
  | .destroy slot => Sys2Proof.Machine.execDestroy slot s

end Sys2Proof.Machine
end

