-- ==== Sys2Proof/WellFormed.lean ====
section
/-! DEFINITION. Which commands have an encoding: the data of UPDATE and COMPUTE must fit the 32-bit LEN field
(30_encoding R72, R80). Every other field has exactly the width the header or an operand gives it, so its type is its
only check. -/

namespace Sys2Proof

/-- The data of one UPDATE or COMPUTE is at most `MAX_UPDATE_LEN` bytes (00_scope R9). -/
def dataFits (data : List Byte) : Bool := decide (data.length ≤ Config.maxUpdateLen)

/-- A command that some byte sequence encodes. -/
def Instr.wellFormed : Instr → Bool
  | .update _ data => dataFits data
  | .compute _ data => dataFits data
  | .constructMd5 _ _ _ => true
  | .constructSha1 _ _ _ => true
  | .constructSha256 _ _ _ => true
  | .constructSha384 _ _ _ => true
  | .constructSha512 _ _ _ => true
  | .constructRipemd128 _ _ _ => true
  | .constructRipemd160 _ _ _ => true
  | .constructRipemd256 _ _ _ => true
  | .constructWhirlpool _ _ _ => true
  | .constructTiger _ _ _ => true
  | .constructHaval _ _ _ => true
  | .crcConstruct _ _ _ _ _ _ => true
  | .reset _ => true
  | .finalize _ => true
  | .status _ => true
  | .destroy _ => true

end Sys2Proof
end

