-- ==== Sys2Proof/Decode.lean ====
section
/-! DEFINITION. The decoder, total on every byte sequence and rejecting by name (30_encoding R81), and after it the
encoder, from the same tables (R70 to R80). -/

namespace Sys2Proof

/-- Why the bytes are no command of the table (30_encoding R76, R77, R82). -/
inductive Reject where
  /-- OPC outside 0x01 to 0x08: only the header is taken -/
  | illegalOpcode
  /-- a reserved field is nonzero: the whole command is taken -/
  | reservedField
  /-- CONSTRUCT with an algorithm id of no row -/
  | unknownAlgorithm
  deriving DecidableEq, Repr

/-- The decoder's verdict; `rest` is the stream after the bytes the command takes (20_memory R57). -/
inductive Decoded where
  /-- the command's bytes have not all arrived -/
  | incomplete
  | rejected (why : Reject) (slot : Byte) (rest : List Byte)
  | command (i : Instr) (rest : List Byte)
  deriving DecidableEq, Repr

/-- The header word's fields (30_encoding R71). -/
structure Header where
  opc : Byte
  slot : Byte
  a : Byte
  b : Nibble
  c : Nibble
  deriving DecidableEq, Repr

/-- The fields of a header whose four bytes have arrived: OPC, SLOT, A, then B and C as the high and low half of the last
byte (30_encoding R70, R71). -/
def readHeader (b0 b1 b2 b3 : Byte) : Header :=
  { opc := b0, slot := b1, a := b2, b := b3.extractLsb' 4 4, c := b3.extractLsb' 0 4 }

/-- `take(n)`: the next `n` bytes and the stream after them, if they have all arrived (20_memory R57). -/
def takeBytes (n : Nat) (bs : List Byte) : Option (List Byte × List Byte) :=
  if n ≤ bs.length then some (bs.take n, bs.drop n) else none

/-- The next 64-bit big-endian operand (30_encoding R72). -/
def take64 (bs : List Byte) : Option (Word64 × List Byte) :=
  (takeBytes 8 bs).map fun tr => (BitVec.ofNat 64 (Machine.beNat tr.1), tr.2)

/-- LEN and DATA (30_encoding R72, R80). -/
def takeData (bs : List Byte) : Option (List Byte × List Byte) :=
  (takeBytes 4 bs).bind fun tr => takeBytes (Machine.beNat tr.1) tr.2

/-- CONSTRUCT, by its algorithm id (30_encoding R77). -/
def decodeConstruct (h : Header) (rest : List Byte) : Decoded :=
  match h.a.toNat with
  | 0x01 => .command (.constructMd5 h.slot h.b h.c) rest
  | 0x02 => .command (.constructSha1 h.slot h.b h.c) rest
  | 0x03 => .command (.constructSha256 h.slot h.b h.c) rest
  | 0x04 => .command (.constructSha384 h.slot h.b h.c) rest
  | 0x05 => .command (.constructSha512 h.slot h.b h.c) rest
  | 0x06 => .command (.constructRipemd128 h.slot h.b h.c) rest
  | 0x07 => .command (.constructRipemd160 h.slot h.b h.c) rest
  | 0x08 => .command (.constructRipemd256 h.slot h.b h.c) rest
  | 0x09 => .command (.constructWhirlpool h.slot h.b h.c) rest
  | 0x0A => .command (.constructTiger h.slot h.b h.c) rest
  | 0x0B => .command (.constructHaval h.slot h.b h.c) rest
  | _ => .rejected .unknownAlgorithm h.slot rest

/-- A, B and C are all 0, as the commands without parameters need (30_encoding R76). -/
def plainFields (h : Header) : Bool := h.a = 0 ∧ h.b = 0 ∧ h.c = 0

/-- A command whose fields A, B and C are reserved, once its operands are taken (30_encoding R76, R81). -/
def decodePlain (h : Header) (i : Instr) (rest : List Byte) : Decoded :=
  if plainFields h then .command i rest else .rejected .reservedField h.slot rest

/-- CRC_CONSTRUCT: the three operands, then the reserved fields B and C[3:1] (30_encoding R76, R79, R81). -/
def decodeCrcConstruct (h : Header) (bs : List Byte) : Decoded :=
  match take64 bs with
  | none => .incomplete
  | some (poly, bs1) =>
    match take64 bs1 with
    | none => .incomplete
    | some (init, bs2) =>
      match take64 bs2 with
      | none => .incomplete
      | some (xorout, rest) =>
        if h.b = 0 ∧ h.c.toNat ≤ 1 then
          .command (.crcConstruct h.slot h.a (h.c == 1) poly init xorout) rest
        else .rejected .reservedField h.slot rest

/-- UPDATE or COMPUTE: LEN and DATA, then the reserved fields (30_encoding R81). -/
def decodeData (h : Header) (make : List Byte → Instr) (bs : List Byte) : Decoded :=
  match takeData bs with
  | none => .incomplete
  | some (data, rest) => decodePlain h (make data) rest

/-- The command a header begins, from the bytes after it (30_encoding R73, R81). -/
def decodeBody (h : Header) (bs : List Byte) : Decoded :=
  match h.opc.toNat with
  | 0x01 => decodeConstruct h bs
  | 0x02 => decodeCrcConstruct h bs
  | 0x03 => decodePlain h (.reset h.slot) bs
  | 0x04 => decodeData h (.update h.slot) bs
  | 0x05 => decodePlain h (.finalize h.slot) bs
  | 0x06 => decodeData h (.compute h.slot) bs
  | 0x07 => decodePlain h (.status h.slot) bs
  | 0x08 => decodePlain h (.destroy h.slot) bs
  | _ => .rejected .illegalOpcode h.slot bs

/-- The decoder (30_encoding R81). -/
def decode (bs : List Byte) : Decoded :=
  match bs with
  | b0 :: b1 :: b2 :: b3 :: rest => decodeBody (readHeader b0 b1 b2 b3) rest
  | _ => .incomplete

/-- The four bytes of a header, OPC first (30_encoding R70, R71). -/
def headerBytes (h : Header) : List Byte := [h.opc, h.slot, h.a, h.b ++ h.c]

/-- The header of a CONSTRUCT (30_encoding R71, R77). -/
def constructBytes (slot a : Byte) (b c : Nibble) : List Byte :=
  headerBytes { opc := 0x01, slot := slot, a := a, b := b, c := c }

/-- The header of a command whose other fields are reserved (30_encoding R76). -/
def plainBytes (opc slot : Byte) : List Byte := headerBytes { opc := opc, slot := slot, a := 0, b := 0, c := 0 }

/-- LEN and DATA (30_encoding R72). -/
def dataBytes (data : List Byte) : List Byte := Machine.beBytesOf 4 data.length ++ data

/-- The bytes of a command (30_encoding R70 to R80). -/
def encode : Instr → List Byte
  | .constructMd5 s b c => constructBytes s 0x01 b c
  | .constructSha1 s b c => constructBytes s 0x02 b c
  | .constructSha256 s b c => constructBytes s 0x03 b c
  | .constructSha384 s b c => constructBytes s 0x04 b c
  | .constructSha512 s b c => constructBytes s 0x05 b c
  | .constructRipemd128 s b c => constructBytes s 0x06 b c
  | .constructRipemd160 s b c => constructBytes s 0x07 b c
  | .constructRipemd256 s b c => constructBytes s 0x08 b c
  | .constructWhirlpool s b c => constructBytes s 0x09 b c
  | .constructTiger s b c => constructBytes s 0x0A b c
  | .constructHaval s b c => constructBytes s 0x0B b c
  | .crcConstruct s order reflect poly init xorout =>
    headerBytes { opc := 0x02, slot := s, a := order, b := 0, c := if reflect then 1 else 0 } ++
      Machine.beBytes poly ++ Machine.beBytes init ++ Machine.beBytes xorout
  | .reset s => plainBytes 0x03 s
  | .update s data => plainBytes 0x04 s ++ dataBytes data
  | .finalize s => plainBytes 0x05 s
  | .compute s data => plainBytes 0x06 s ++ dataBytes data
  | .status s => plainBytes 0x07 s
  | .destroy s => plainBytes 0x08 s

/-- The length of a command in bytes (30_encoding R83). -/
def commandLength : Instr → Nat
  | .constructMd5 _ _ _ => 4
  | .constructSha1 _ _ _ => 4
  | .constructSha256 _ _ _ => 4
  | .constructSha384 _ _ _ => 4
  | .constructSha512 _ _ _ => 4
  | .constructRipemd128 _ _ _ => 4
  | .constructRipemd160 _ _ _ => 4
  | .constructRipemd256 _ _ _ => 4
  | .constructWhirlpool _ _ _ => 4
  | .constructTiger _ _ _ => 4
  | .constructHaval _ _ _ => 4
  | .crcConstruct _ _ _ _ _ _ => 28
  | .reset _ => 4
  | .update _ data => 8 + data.length
  | .finalize _ => 4
  | .compute _ data => 8 + data.length
  | .status _ => 4
  | .destroy _ => 4

/-- How many bytes the command whose bits are `v` takes, `v` numbered as the opcode table numbers them: 32-bit words,
the first in bits 31 to 0 (30_encoding R83; log entry 7). -/
def tableLength (v : Nat) : Nat :=
  match (v >>> 24) % 256 with
  | 0x02 => 28
  | 0x04 => 8 + (v >>> 32) % 2 ^ 32
  | 0x06 => 8 + (v >>> 32) % 2 ^ 32
  | _ => 4

/-- Byte `i` of the command: each 32-bit word of the table's numbering is sent big-endian (20_memory R52). -/
def tableByte (v i : Nat) : Byte := BitVec.ofNat 8 (v >>> (32 * (i / 4) + 8 * (3 - i % 4)))

/-- The bytes of the command whose `nbits` table bits are `w`, every bit above them 0 (log entry 7). -/
def tableBytes (nbits w : Nat) : List Byte :=
  (List.range (tableLength (w % 2 ^ nbits))).map (tableByte (w % 2 ^ nbits))

/-- The command the decoder reads from the table's bits. -/
def decodeTableWord (nbits w : Nat) : Option Instr :=
  match decode (tableBytes nbits w) with
  | .command i _ => some i
  | .rejected _ _ _ => none
  | .incomplete => none

end Sys2Proof
end

