-- ==== Sys2Proof/Machine/Fetch.lean ====
section
/-! DEFINITION. Taking the next command from the command stream (20_memory R57, R58; 30_encoding R81), and what the engine
does with bytes that are no command of the table. -/

namespace Sys2Proof.Machine

/-- What the engine finds at the front of the command stream. -/
inductive Fetched where
  /-- the engine has no step -/
  | stop (f : Fault)
  /-- bytes the decoder rejects, and the state with them consumed -/
  | reject (why : Reject) (slot : Byte) (s : State)
  /-- a command, and the state with its bytes consumed -/
  | run (i : Instr) (s : State)
  deriving DecidableEq, Repr

/-- Why the engine waits: for a first header byte, or inside a command (70_reset R451). -/
def waitingFault (commands : List Byte) : Fault :=
  match commands with
  | [] => .waiting
  | _ :: _ => .starved

/-- The next command. The engine takes no step in the fault state (60_exceptions R404), takes a command only when all its
bytes have arrived (20_memory R57, log entry 3), and then consumes exactly those bytes (R58). -/
def fetch (s : State) : Fetched :=
  match s.fault with
  | some r => .stop (.halted r)
  | none =>
    match decode s.commands with
    | .incomplete => .stop (waitingFault s.commands)
    | .rejected why slot rest => .reject why slot { s with commands := rest }
    | .command i rest => .run i { s with commands := rest }

/-- The error of bytes the decoder rejects: ILLEGAL_COMMAND before any slot check (30_encoding R81; 60_exceptions R405);
CONSTRUCT with an unknown algorithm id after the slot checks (41_engine R120). -/
def rejectCommand (why : Reject) (slot : Byte) (s : State) : StepOutcome :=
  match why with
  | .illegalOpcode => raise s .illegalCommand slot
  | .reservedField => raise s .illegalCommand slot
  | .unknownAlgorithm => constructUnknown slot s

end Sys2Proof.Machine
end

