-- ==== Sys2Proof/Machine/Step.lean ====
section
/-! DEFINITION. One step of the engine: one command, as one atomic transition (00_scope R14; 20_memory R61). -/

namespace Sys2Proof.Machine

/-- One step (30_encoding R81). -/
def step (s : State) : Host.Outcome State Fault Refusal :=
  match fetch s with
  | .stop f => .fault f
  | .reject why slot s' => rejectCommand why slot s'
  | .run i s' => exec i s'

/-- `s` with the command whose `nbits` table bits are `w` at the front of the command stream, where step takes its next
command: the host sent those bytes (log entry 7). -/
def State.withFetchWord (s : State) (nbits w : Nat) : State := { s with commands := tableBytes nbits w ++ s.commands }

end Sys2Proof.Machine
end

