-- ==== Sys2Proof/Safety.lean ====
section
/-! DEFINITION. What every reachable state satisfies (10_state R25, R28, R29, R31) and how a run ends (70_reset R451), in the
terms the statements use. -/

namespace Sys2Proof.Machine

/-- The accumulator has the shape its descriptor fixes (10_state R24). -/
def accShape (a : Alg) (acc : Acc) : Bool :=
  match acc with
  | .w32 ws => (descriptor Params.spec a).wordBits == 32 && ws.length == (descriptor Params.spec a).accWords
  | .w64 ws => (descriptor Params.spec a).wordBits == 64 && ws.length == (descriptor Params.spec a).accWords

/-- Between commands: `buffered < bs`, `count` is a multiple of `bs`, and the accumulator has its shape (10_state R24,
R25). -/
def hashWf (i : HashInst) : Bool :=
  decide (buffered i < blockSize i.desc) && i.count % blockSize i.desc == 0 && accShape i.desc i.acc

/-- A value has at most `order` bits (10_state R28). -/
def fitsOrder (o : CrcOrder) (v : Word64) : Bool := decide (v.toNat < 2 ^ orderBits o)

/-- `poly`, `init` and `xorout` have `order` bits (10_state R28). -/
def crcParamsWf (p : CrcParams) : Bool := fitsOrder p.order p.poly && fitsOrder p.order p.init && fitsOrder p.order p.xorout

/-- The table is the one for the parameters, and the register has `order` bits (10_state R27). -/
def crcWf (c : CrcInst) : Bool := crcParamsWf c.params && c.table == genTable c.params && fitsOrder c.params.order c.reg

/-- What a slot holds is well formed (10_state R22). -/
def slotWf : Slot → Bool
  | .empty => true
  | .hash i => hashWf i
  | .crc c => crcWf c

/-- The keys of the cache strictly rise: its one canonical form (log entry 11). -/
def keysRise : List (CrcParams × CrcTable) → Bool
  | [] => true
  | e :: rest => rest.all (fun f => decide (cacheKey e.1 < cacheKey f.1)) && keysRise rest

/-- Every entry satisfies `cache[p] = GenTable(p)`, and the cache is in canonical form (10_state R29). -/
def cacheWf (cache : List (CrcParams × CrcTable)) : Bool :=
  keysRise cache && cache.all fun e => crcParamsWf e.1 && e.2 == genTable e.1

/-- The cache holds the table of a CRC slot: no command removes an entry (10_state R29). -/
def slotCached (cache : List (CrcParams × CrcTable)) : Slot → Bool
  | .empty => true
  | .hash _ => true
  | .crc c => cacheFind cache c.params == some c.table

/-- The fault record names the command that failed, which is the next one still, and its code was the last response
(10_state R31; 60_exceptions R404). -/
def faultWf (s : State) : Bool :=
  match s.fault with
  | none => true
  | some r => r.atNcmd == s.ncmd && s.responses.getLast? == some (errorByte r.code)

/-- The invariant of the device: 1 to 256 slots (00_scope R9), each well formed, their tables cached, a correct cache in
canonical form, and a correct fault record. -/
def State.inv (s : State) : Bool :=
  decide (1 ≤ s.nSlots) && decide (s.nSlots ≤ 256) && s.slots.all slotWf && s.slots.all (slotCached s.cache) &&
    cacheWf s.cache && faultWf s

/-- The run has ended Completed: no fault, and no byte of a next command (70_reset R451 kind 1). -/
def State.completed (s : State) : Bool := s.fault.isNone && s.commands.isEmpty

/-- The run has ended Faulted (70_reset R451 kind 2). -/
def State.inFault (s : State) : Bool := s.fault.isSome

/-- The run has ended Starved: the engine waits inside a command (70_reset R451 kind 3). -/
def State.starving (s : State) : Bool := s.fault.isNone && !s.commands.isEmpty && decide (decode s.commands = .incomplete)

end Sys2Proof.Machine
end

