-- ==== Sys2Proof/Certificates/Slice0/Obligations.lean ====
section
/-! DEFINITION. The statements for the provers, from the numbered rules of spec/. The names under `Sys2Proof.Claims` are the
vocabulary they are written in. -/

namespace Sys2Proof.Claims

open Sys2Proof.Machine

/-- The engine is not halted and the SLOT field is in range (30_encoding R74). -/
abbrev Ready (s : State) (slot : Byte) : Prop := s.fault = none ∧ slotIndex slot < s.nSlots

/-- The command completes: the slot it names holds `v`, every other slot, the parameters, the unconsumed stream and the
number of slots are unchanged, there is no fault, `ncmd` is one more, one response 0x00 and `payload` was appended, and
the cache is `cache` (30_encoding R84; 41_engine R131). -/
def Completes (s : State) (slot : Byte) (v : Slot) (payload : List Byte) (cache : List (CrcParams × CrcTable))
    (o : StepOutcome) : Prop :=
  ∃ t, o = .next t ∧ t.slotAt (slotIndex slot) = v ∧ (∀ j, j ≠ slotIndex slot → t.slotAt j = s.slotAt j) ∧
    t.nSlots = s.nSlots ∧ t.cache = cache ∧ t.fault = none ∧ t.ncmd = s.ncmd + 1 ∧ t.commands = s.commands ∧
    t.responses = s.responses ++ 0x00 :: payload ∧ t.params = s.params

/-- The command raises `e`: the fault record and one response byte are written, and nothing else (60_exceptions R404). -/
def Raises (s : State) (slot : Byte) (e : ErrorCode) (o : StepOutcome) : Prop :=
  ∃ t, o = .next t ∧ t.slots = s.slots ∧ t.cache = s.cache ∧ t.ncmd = s.ncmd ∧ t.commands = s.commands ∧
    t.params = s.params ∧ t.fault = some { code := e, slot := slot, atNcmd := s.ncmd } ∧
    t.responses = s.responses ++ [errorByte e]

/-- The CONSTRUCT rows without parameters, each with its descriptor key (30_encoding R77). -/
def plainConstructs (slot : Byte) (b c : Nibble) : List (Instr × Alg) := [
  (.constructMd5 slot b c, .md5), (.constructSha1 slot b c, .sha1), (.constructSha256 slot b c, .sha256),
  (.constructSha384 slot b c, .sha384), (.constructSha512 slot b c, .sha512),
  (.constructRipemd128 slot b c, .ripemd128), (.constructRipemd160 slot b c, .ripemd160),
  (.constructRipemd256 slot b c, .ripemd256), (.constructWhirlpool slot b c, .whirlpool),
  (.constructTiger slot b c, .tiger)]

/-- A header whose reserved fields are not all 0 (30_encoding R76). -/
def reservedBroken (opc a : Byte) (b c : Nibble) : Prop :=
  (opc ∈ ([0x03, 0x04, 0x05, 0x06, 0x07, 0x08] : List Byte) ∧ ¬(a = 0 ∧ b = 0 ∧ c = 0)) ∨
    (opc = 0x02 ∧ ¬(b = 0 ∧ c.toNat ≤ 1))

/-- `ops` are the operand bytes the opcode requires (30_encoding R72). -/
def operandsOf (opc : Byte) (ops : List Byte) : Prop :=
  (opc ∈ ([0x03, 0x05, 0x07, 0x08] : List Byte) ∧ ops = []) ∨ (opc = 0x02 ∧ ops.length = 24) ∨
    (opc ∈ ([0x04, 0x06] : List Byte) ∧
      ∃ len data : List Byte, ops = len ++ data ∧ len.length = 4 ∧ data.length = beNat len)

/-- Run UPDATE on one slot for each piece of a message, in order. -/
def updateAll (slot : Byte) : List (List Byte) → State → StepOutcome
  | [], s => .next s
  | c :: cs, s =>
    match exec (.update slot c) s with
    | .next t => updateAll slot cs t
    | .fault f => .fault f
    | .refused r => .refused r

/-- The whole message followed by its padding (42_padding R155, R156). -/
def paddedMessage (p : Params) (a : Alg) (m : List Byte) : List Byte :=
  let d := descriptor p a
  m ++ [d.marker] ++ List.replicate (padZeros d.blockSize m.length (d.trailer.length + d.lenBytes)) 0 ++ d.trailer ++
    lenField d (8 * m.length)

/-- The digest of a whole message in one pass: Compress on the blocks of the padded message, in order, from the initial
accumulator (41_engine R125, R126). -/
def oneShotDigest (p : Params) (a : Alg) (m : List Byte) : List Byte :=
  let padded := paddedMessage p a m
  output p a (compressBlocks a (padded.length / blockSize a) (initialAcc a) padded)

/-- Run commands in order, and list each one's slot and the response bytes it appended. -/
def runLog : List Instr → State → Option (State × List (Byte × List Byte))
  | [], s => some (s, [])
  | i :: rest, s =>
    match exec i s with
    | .next t =>
      match runLog rest t with
      | some (u, log) => some (u, (i.slot, t.responses.drop s.responses.length) :: log)
      | none => none
    | .fault _ => none
    | .refused _ => none

/-- The number of payload bytes after the status byte (30_encoding R84). -/
def payloadLength (i : Instr) (s : State) : Nat :=
  match i with
  | .status _ => 8
  | .finalize slot => digestLength (s.slotAt (slotIndex slot))
  | .compute slot _ => digestLength (s.slotAt (slotIndex slot))
  | _ => 0
where
  digestLength : Slot → Nat
    | .empty => 0
    | .hash i => (descriptor Params.spec i.desc).digestBits / 8
    | .crc c => orderBits c.params.order / 8

/-- The errors of the usage-sequence class (60_exceptions R403). -/
def isUsageError (e : ErrorCode) : Prop := e = .usageFinalizeTwice ∨ e = .usageUpdateAfterFinalize

/-- The mini-boxes `E`, `E^-1` and `R` (47_whirlpool R302). -/
def miniE : List Nat := [1, 11, 9, 12, 13, 6, 15, 3, 14, 8, 7, 4, 10, 2, 5, 0]
/-- The inverse of `E` (47_whirlpool R302). -/
def miniEInv : List Nat := [15, 0, 13, 7, 11, 14, 5, 10, 9, 2, 12, 1, 3, 4, 8, 6]
/-- `R` (47_whirlpool R302). -/
def miniR : List Nat := [7, 12, 11, 13, 14, 4, 9, 15, 6, 3, 8, 10, 2, 5, 1, 0]

/-- The S-box entry the mini-boxes give (47_whirlpool R302). -/
def miniSbox (x : Nat) : Nat :=
  let a := miniE.getD (x / 16) 0
  let b := miniEInv.getD (x % 16) 0
  let r := miniR.getD (a ^^^ b) 0
  (miniE.getD (a ^^^ r) 0) * 16 ||| miniEInv.getD (b ^^^ r) 0

/-- The largest `buffered` that still pads into one final block (42_padding R158). -/
def oneBlockUpTo : Alg → Nat
  | .sha384 => 111
  | .sha512 => 111
  | .whirlpool => 31
  | .haval _ _ => 117
  | _ => 55

end Sys2Proof.Claims

open Sys2Proof Sys2Proof.Machine Sys2Proof.Claims

/-! ## Encoding -/

/-- Decode and encode agree: every field of every well-formed command comes back (30_encoding R70 to R81). -/
def Obligations.DecodeOfEncodeIsTheCommand : Prop :=
  ∀ (i : Instr) (rest : List Byte), i.wellFormed = true → decode (encode i ++ rest) = .command i rest

/-- Bytes that decode to a command are that command's encoding, and the command is well formed: each word has one meaning
(30_encoding R81). -/
def Obligations.DecodedBytesAreTheEncoding : Prop :=
  ∀ (bs rest : List Byte) (i : Instr),
    decode bs = .command i rest → bs = encode i ++ rest ∧ i.wellFormed = true ∧ bs.length = commandLength i + rest.length

/-- The worked encodings (30_encoding R89). -/
def Obligations.WorkedEncodingsDecode : Prop :=
  decode [0x01, 0x00, 0x01, 0x00] = .command (.constructMd5 0 0 0) [] ∧
  decode [0x01, 0x02, 0x0B, 0x58] = .command (.constructHaval 2 5 8) [] ∧
  decode [0x02, 0x01, 0x20, 0x01, 0x00, 0x00, 0x00, 0x00, 0x04, 0xC1, 0x1D, 0xB7, 0x00, 0x00, 0x00, 0x00, 0xFF, 0xFF, 0xFF,
    0xFF, 0x00, 0x00, 0x00, 0x00, 0xFF, 0xFF, 0xFF, 0xFF] =
      .command (.crcConstruct 1 32 true 0x04C11DB7 0xFFFFFFFF 0xFFFFFFFF) [] ∧
  decode [0x04, 0x00, 0x00, 0x00, 0x00, 0x00, 0x00, 0x03, 0x61, 0x62, 0x63] = .command (.update 0 [0x61, 0x62, 0x63]) [] ∧
  decode [0x05, 0x00, 0x00, 0x00] = .command (.finalize 0) [] ∧
  decode [0x07, 0x03, 0x00, 0x00] = .command (.status 3) []

/-- The header words that encode no command raise ILLEGAL_COMMAND: an opcode outside the table with only its 4 header bytes
consumed, a broken reserved field with the whole command consumed (30_encoding R82; 60_exceptions R404). -/
def Obligations.IllegalWordsRaiseIllegalCommand : Prop :=
  ∀ (s : State) (opc slot a : Byte) (b c : Nibble) (ops rest : List Byte), s.fault = none →
    (opc ∉ ([0x01, 0x02, 0x03, 0x04, 0x05, 0x06, 0x07, 0x08] : List Byte) →
      s.commands = [opc, slot, a, b ++ c] ++ rest →
      Raises { s with commands := rest } slot .illegalCommand (step s)) ∧
    (reservedBroken opc a b c → operandsOf opc ops → s.commands = [opc, slot, a, b ++ c] ++ ops ++ rest →
      Raises { s with commands := rest } slot .illegalCommand (step s))

/-- A CONSTRUCT whose A is no algorithm id raises CONFIG_ALG on an empty slot, SLOT_BUSY on an occupied one and BAD_SLOT out
of range (30_encoding R77; 60_exceptions R405). -/
def Obligations.UnknownAlgorithmRaisesConfigAlg : Prop :=
  ∀ (s : State) (slot a : Byte) (b c : Nibble) (rest : List Byte), s.fault = none →
    (a = 0x00 ∨ 0x0C ≤ a.toNat) → s.commands = [0x01, slot, a, b ++ c] ++ rest →
      (slotIndex slot < s.nSlots → s.slotAt (slotIndex slot) = .empty →
        Raises { s with commands := rest } slot .configAlg (step s)) ∧
      (slotIndex slot < s.nSlots → s.slotAt (slotIndex slot) ≠ .empty →
        Raises { s with commands := rest } slot .slotBusy (step s)) ∧
      (s.nSlots ≤ slotIndex slot → Raises { s with commands := rest } slot .badSlot (step s))

/-! ## The step -/

/-- A step runs the decoded command on the state with exactly its bytes consumed (30_encoding R81; 20_memory R58). -/
def Obligations.StepRunsDecodedCommand : Prop :=
  ∀ (s : State) (i : Instr) (rest : List Byte), s.fault = none → decode s.commands = .command i rest →
    step s = exec i { s with commands := rest }

/-- Once `fault` is `Some` nothing changes the device: no step, and no command (10_state R31; 60_exceptions R404). -/
def Obligations.HaltedEngineTakesNoStep : Prop :=
  ∀ (s : State) (r : FaultRecord), s.fault = some r →
    step s = .fault (.halted r) ∧ ∀ i : Instr, exec i s = .fault (.halted r)

/-- The engine has no step exactly at the three ends of a run (20_memory R57; 70_reset R451). -/
def Obligations.EngineStopsExactlyAtTheEnds : Prop :=
  ∀ (s : State) (f : Fault), step s = .fault f ↔
    ((∃ r, s.fault = some r ∧ f = .halted r) ∨ (s.completed = true ∧ f = .waiting) ∨
      (s.starving = true ∧ f = .starved))

/-- A command whose bytes have all arrived completes or faults (70_reset R452: after finitely many engine steps). That it does
so in ONE step, and that no step is refused, is the model's choice: a command is one atomic transition (00_scope R14), and
so one step (log entry 15). -/
def Obligations.ArrivedCommandCompletesOrFaults : Prop :=
  ∀ s : State, (∀ r, step s ≠ .refused r) ∧
    (s.fault = none → decode s.commands ≠ .incomplete →
      ∃ t, step s = .next t ∧
        ((t.fault = none ∧ t.ncmd = s.ncmd + 1) ∨ (∃ r, t.fault = some r ∧ r.atNcmd = s.ncmd ∧ t.ncmd = s.ncmd)))

/-- A step that completes consumes exactly one command's bytes from the front of the stream and adds 1 to `ncmd`
(41_engine R131; 20_memory R58). -/
def Obligations.CompletedStepConsumesOneCommand : Prop :=
  ∀ s t : State, step s = .next t → t.fault = none →
    ∃ i : Instr, i.wellFormed = true ∧ s.commands = encode i ++ t.commands ∧ t.ncmd = s.ncmd + 1

/-! ## CONSTRUCT -/

/-- CONSTRUCT of an algorithm without parameters binds an empty slot to `Init(desc)` (41_engine R119, R120). -/
def Obligations.ConstructBindsInitialState : Prop :=
  ∀ (s : State) (slot : Byte), Ready s slot → s.slotAt (slotIndex slot) = .empty →
    ∀ ia ∈ plainConstructs slot 0 0,
      Completes s slot (.hash { desc := ia.2, phase := .active, buf := [], count := 0, acc := initialAcc ia.2 }) [] s.cache
        (exec ia.1 s)

/-- CONSTRUCT of HAVAL binds the pass count B and the length `32*C` (30_encoding R78; 41_engine R120). -/
def Obligations.ConstructHavalBindsPassesAndLength : Prop :=
  ∀ (s : State) (slot : Byte) (b c : Nibble), Ready s slot → s.slotAt (slotIndex slot) = .empty →
    3 ≤ b.toNat → b.toNat ≤ 5 → 4 ≤ c.toNat → c.toNat ≤ 8 →
      ∃ passes hlen, havalPassCount passes = b.toNat ∧ havalBits hlen = 32 * c.toNat ∧
        Completes s slot
          (.hash { desc := .haval passes hlen, phase := .active, buf := [], count := 0, acc := .w32 havalIV }) [] s.cache
          (exec (.constructHaval slot b c) s)

/-- The initial accumulators (44_md5 R211; 45_sha R231, R237, R243, R245; 46_ripemd R277, R279, R281; 47_whirlpool R307;
48_tiger R336; 49_haval R360). -/
def Obligations.InitialAccumulatorsAsListed : Prop :=
  (hashInit .md5).acc = .w32 [0x67452301, 0xEFCDAB89, 0x98BADCFE, 0x10325476] ∧
  (hashInit .sha1).acc = .w32 [0x67452301, 0xEFCDAB89, 0x98BADCFE, 0x10325476, 0xC3D2E1F0] ∧
  (hashInit .sha256).acc = .w32 [0x6A09E667, 0xBB67AE85, 0x3C6EF372, 0xA54FF53A, 0x510E527F, 0x9B05688C, 0x1F83D9AB,
    0x5BE0CD19] ∧
  (hashInit .sha384).acc = .w64 [0xCBBB9D5DC1059ED8, 0x629A292A367CD507, 0x9159015A3070DD17, 0x152FECD8F70E5939,
    0x67332667FFC00B31, 0x8EB44A8768581511, 0xDB0C2E0D64F98FA7, 0x47B5481DBEFA4FA4] ∧
  (hashInit .sha512).acc = .w64 [0x6A09E667F3BCC908, 0xBB67AE8584CAA73B, 0x3C6EF372FE94F82B, 0xA54FF53A5F1D36F1,
    0x510E527FADE682D1, 0x9B05688C2B3E6C1F, 0x1F83D9ABFB41BD6B, 0x5BE0CD19137E2179] ∧
  (hashInit .ripemd160).acc = .w32 [0x67452301, 0xEFCDAB89, 0x98BADCFE, 0x10325476, 0xC3D2E1F0] ∧
  (hashInit .ripemd128).acc = .w32 [0x67452301, 0xEFCDAB89, 0x98BADCFE, 0x10325476] ∧
  (hashInit .ripemd256).acc = .w32 [0x67452301, 0xEFCDAB89, 0x98BADCFE, 0x10325476, 0x76543210, 0xFEDCBA98, 0x89ABCDEF,
    0x01234567] ∧
  (hashInit .whirlpool).acc = .w64 [0, 0, 0, 0, 0, 0, 0, 0] ∧
  (hashInit .tiger).acc = .w64 [0x0123456789ABCDEF, 0xFEDCBA9876543210, 0xF096A5B4C3B2E187] ∧
  ∀ passes hlen, (hashInit (.haval passes hlen)).acc = .w32 [0x243F6A88, 0x85A308D3, 0x13198A2E, 0x03707344, 0xA4093822,
    0x299F31D0, 0x082EFA98, 0xEC4E6C89]

/-- A nonzero B or C on an algorithm without parameters raises CONFIG_PARAM (41_engine R120). -/
def Obligations.UnwantedParametersRaiseConfigParam : Prop :=
  ∀ (s : State) (slot : Byte) (b c : Nibble), Ready s slot → s.slotAt (slotIndex slot) = .empty → ¬(b = 0 ∧ c = 0) →
    ∀ ia ∈ plainConstructs slot b c, Raises s slot .configParam (exec ia.1 s)

/-- A HAVAL CONSTRUCT with B not in {3, 4, 5}, or C not in {4, 5, 6, 7, 8}, raises CONFIG_HAVAL (30_encoding R78). -/
def Obligations.BadHavalParametersRaiseConfigHaval : Prop :=
  ∀ (s : State) (slot : Byte) (b c : Nibble), Ready s slot → s.slotAt (slotIndex slot) = .empty →
    ¬((3 ≤ b.toNat ∧ b.toNat ≤ 5) ∧ (4 ≤ c.toNat ∧ c.toNat ≤ 8)) →
      Raises s slot .configHaval (exec (.constructHaval slot b c) s)

/-- A construction addressed to an occupied slot raises SLOT_BUSY, whatever its parameters (60_exceptions R401, R405). -/
def Obligations.ConstructionOnBusySlotRaises : Prop :=
  ∀ (s : State) (slot order : Byte) (b c : Nibble) (reflect : Bool) (poly init xorout : Word64), Ready s slot →
    s.slotAt (slotIndex slot) ≠ .empty →
      (∀ ia ∈ plainConstructs slot b c, Raises s slot .slotBusy (exec ia.1 s)) ∧
      Raises s slot .slotBusy (exec (.constructHaval slot b c) s) ∧
      Raises s slot .slotBusy (exec (.crcConstruct slot order reflect poly init xorout) s)

/-- A command with `s >= N_SLOTS` raises BAD_SLOT, and with 256 slots every SLOT value is in range (30_encoding R74). -/
def Obligations.SlotOutOfRangeRaisesBadSlot : Prop :=
  ∀ (s : State) (i : Instr),
    (s.fault = none → s.nSlots ≤ i.slot.toNat → Raises s i.slot .badSlot (exec i s)) ∧
    (s.nSlots = 256 → slotIndex i.slot < s.nSlots)

/-- RESET, UPDATE, FINALIZE, COMPUTE and DESTROY on an empty slot raise SLOT_EMPTY (60_exceptions R401, R405). -/
def Obligations.CommandsOnEmptySlotRaise : Prop :=
  ∀ (s : State) (slot : Byte) (data : List Byte), Ready s slot → s.slotAt (slotIndex slot) = .empty →
    ∀ i ∈ ([.reset slot, .update slot data, .finalize slot, .compute slot data, .destroy slot] : List Instr),
      Raises s slot .slotEmpty (exec i s)

/-! ## RESET, UPDATE, FINALIZE, COMPUTE, STATUS, DESTROY -/

/-- RESET returns an instance to its initial state in either phase: `Init(desc)` for a hash slot, the initial register and
phase `Active` with the table kept for a CRC slot (41_engine R121; 43_crc R187). -/
def Obligations.ResetRestoresInitialState : Prop :=
  ∀ (s : State) (slot : Byte), Ready s slot →
    (∀ i, s.slotAt (slotIndex slot) = .hash i →
      Completes s slot
        (.hash { desc := i.desc, phase := .active, buf := [], count := 0, acc := initialAcc i.desc }) [] s.cache
        (exec (.reset slot) s)) ∧
    (∀ c, s.slotAt (slotIndex slot) = .crc c →
      Completes s slot
        (.crc { params := c.params, table := c.table, phase := .active,
                reg := if s.params.crcReflectInit = true ∧ c.params.reflect = true then
                         reflect (orderBits c.params.order) c.params.init
                       else c.params.init }) [] s.cache
        (exec (.reset slot) s))

/-- UPDATE of an active hash slot compresses the whole blocks of what is buffered followed by DATA, counts them, and
buffers the rest (41_engine R122, R123, R124). -/
def Obligations.UpdateFoldsWholeBlocks : Prop :=
  ∀ (s : State) (slot : Byte) (i : HashInst) (data : List Byte), Ready s slot → s.slotAt (slotIndex slot) = .hash i →
    i.phase = .active → buffered i < blockSize i.desc →
      Completes s slot
        (.hash { desc := i.desc, phase := .active,
                 acc := compressBlocks i.desc ((buffered i + data.length) / blockSize i.desc) i.acc (i.buf ++ data),
                 count := i.count + blockSize i.desc * ((buffered i + data.length) / blockSize i.desc),
                 buf := (i.buf ++ data).drop (blockSize i.desc * ((buffered i + data.length) / blockSize i.desc)) })
        [] s.cache (exec (.update slot data) s)

/-- An UPDATE with LEN = 0 on an active instance changes nothing but `ncmd` (and answers 0x00); on a finalized one it
raises USAGE_UPDATE_AFTER_FINALIZE (41_engine R130). -/
def Obligations.ZeroLengthUpdateChangesNothing : Prop :=
  ∀ (s : State) (slot : Byte), Ready s slot →
    (∀ i, s.slotAt (slotIndex slot) = .hash i → buffered i < blockSize i.desc →
      (i.phase = .active →
        exec (.update slot []) s = .next { s with ncmd := s.ncmd + 1, responses := s.responses ++ [0x00] }) ∧
      (i.phase = .finalized → Raises s slot .usageUpdateAfterFinalize (exec (.update slot []) s))) ∧
    (∀ c, s.slotAt (slotIndex slot) = .crc c →
      (c.phase = .active →
        exec (.update slot []) s = .next { s with ncmd := s.ncmd + 1, responses := s.responses ++ [0x00] }) ∧
      (c.phase = .finalized → Raises s slot .usageUpdateAfterFinalize (exec (.update slot []) s)))

/-- Chunk invariance: the pieces of a message leave what the whole message leaves, FINALIZE then answers the same bytes after
either, and from `Init` the instance is the one the bytes received determine (41_engine R125). -/
def Obligations.ChunkInvariance : Prop :=
  ∀ (s : State) (slot : Byte) (i : HashInst) (chunks : List (List Byte)), Ready s slot →
    s.slotAt (slotIndex slot) = .hash i → i.phase = .active → buffered i < blockSize i.desc →
      ∃ t u, updateAll slot chunks s = .next t ∧ exec (.update slot chunks.flatten) s = .next u ∧ t.slots = u.slots ∧
        t.fault = none ∧ t.ncmd = s.ncmd + chunks.length ∧
        (∃ v w digest, exec (.finalize slot) t = .next v ∧ exec (.finalize slot) u = .next w ∧ v.slots = w.slots ∧
          v.responses = t.responses ++ 0x00 :: digest ∧ w.responses = u.responses ++ 0x00 :: digest) ∧
        (i = hashInit i.desc →
          ∃ j, t.slotAt (slotIndex slot) = .hash j ∧ j.desc = i.desc ∧ j.phase = .active ∧
            j.acc = compressBlocks i.desc (chunks.flatten.length / blockSize i.desc) (initialAcc i.desc) chunks.flatten ∧
            j.count = blockSize i.desc * (chunks.flatten.length / blockSize i.desc) ∧
            buffered j = chunks.flatten.length % blockSize i.desc ∧
            j.buf = chunks.flatten.drop (blockSize i.desc * (chunks.flatten.length / blockSize i.desc)))

/-- The streaming engine equals the one-shot hash: from `Init`, any pieces and then FINALIZE answer the digest of their
concatenation, padded once as a whole (41_engine R125, R126; 42_padding R155, R156). -/
def Obligations.StreamingEqualsOneShot : Prop :=
  ∀ (s : State) (slot : Byte) (a : Alg) (chunks : List (List Byte)), Ready s slot →
    s.slotAt (slotIndex slot) = .hash (hashInit a) →
      ∃ t u, updateAll slot chunks s = .next t ∧ exec (.finalize slot) t = .next u ∧
        u.responses = t.responses ++ 0x00 :: oneShotDigest s.params a chunks.flatten

/-- FINALIZE of an active hash slot pads, compresses the tail, answers the digest of `digest_bits / 8` bytes, and leaves
`count` and `buf` unchanged (41_engine R126; 42_padding R159, R161). -/
def Obligations.FinalizeAnswersDigest : Prop :=
  ∀ (s : State) (slot : Byte) (i : HashInst), Ready s slot → s.slotAt (slotIndex slot) = .hash i → i.phase = .active →
    hashWf i = true →
      ∃ acc, acc = compressBlocks i.desc ((padTail s.params i.desc i.buf i.count).length / blockSize i.desc) i.acc
          (padTail s.params i.desc i.buf i.count) ∧
        (output s.params i.desc acc).length = (descriptor s.params i.desc).digestBits / 8 ∧
        Completes s slot (.hash { i with phase := .finalized, acc := acc }) (output s.params i.desc acc) s.cache
          (exec (.finalize slot) s)

/-- The usage errors: UPDATE and FINALIZE of a finalized instance of either kind raise them, and RESET, COMPUTE, STATUS and
DESTROY never do (60_exceptions R403). -/
def Obligations.FinalizedInstanceRaisesUsageErrors : Prop :=
  ∀ (s : State) (slot : Byte) (data : List Byte), Ready s slot →
    (∀ i, s.slotAt (slotIndex slot) = .hash i → i.phase = .finalized →
      Raises s slot .usageUpdateAfterFinalize (exec (.update slot data) s) ∧
      Raises s slot .usageFinalizeTwice (exec (.finalize slot) s)) ∧
    (∀ c, s.slotAt (slotIndex slot) = .crc c → c.phase = .finalized →
      Raises s slot .usageUpdateAfterFinalize (exec (.update slot data) s) ∧
      Raises s slot .usageFinalizeTwice (exec (.finalize slot) s)) ∧
    (∀ i ∈ ([.reset slot, .compute slot data, .status slot, .destroy slot] : List Instr),
      ∀ t r, exec i s = .next t → t.fault = some r → ¬isUsageError r.code)

/-- COMPUTE has the effects of RESET, UPDATE and FINALIZE, as one step with the last one's response (41_engine R127). -/
def Obligations.ComputeIsResetUpdateFinalize : Prop :=
  ∀ (s : State) (slot : Byte) (data : List Byte), Ready s slot → s.slotAt (slotIndex slot) ≠ .empty →
    ∃ t u v w digest, exec (.reset slot) s = .next t ∧ exec (.update slot data) t = .next u ∧
      exec (.finalize slot) u = .next v ∧ exec (.compute slot data) s = .next w ∧ w.slots = v.slots ∧ w.cache = v.cache ∧
      w.fault = none ∧ w.ncmd = s.ncmd + 1 ∧ v.responses = u.responses ++ 0x00 :: digest ∧
      w.responses = s.responses ++ 0x00 :: digest

/-- COMPUTE on a hash slot in any phase answers the one-shot digest of its DATA and leaves the slot finalized (41_engine
R127). -/
def Obligations.ComputeAnswersOneShotDigest : Prop :=
  ∀ (s : State) (slot : Byte) (i : HashInst) (data : List Byte), Ready s slot → s.slotAt (slotIndex slot) = .hash i →
    ∃ j : HashInst, j.desc = i.desc ∧ j.phase = .finalized ∧
      j.count = blockSize i.desc * (data.length / blockSize i.desc) ∧ buffered j = data.length % blockSize i.desc ∧
      Completes s slot (.hash j) (oneShotDigest s.params i.desc data) s.cache (exec (.compute slot data) s)

/-- STATUS answers the 8 bytes of the status word, most significant first, whose fields are those of the slot, and changes
no slot (10_state R34; 41_engine R128). -/
def Obligations.StatusReportsSlotFields : Prop :=
  ∀ (s : State) (slot : Byte), Ready s slot →
    ∃ w : Word64,
      Completes s slot (s.slotAt (slotIndex slot)) (beBytes w) s.cache (exec (.status slot) s) ∧
      (s.slotAt (slotIndex slot) = .empty → w = 0) ∧
      (∀ i, s.slotAt (slotIndex slot) = .hash i →
        w.extractLsb' 0 1 = 1 ∧ w.extractLsb' 1 1 = (if i.phase = .finalized then 1 else 0) ∧ w.extractLsb' 2 1 = 0 ∧
        w.extractLsb' 3 5 = 0 ∧ w.extractLsb' 8 8 = algId i.desc ∧
        (∀ passes hlen, i.desc = .haval passes hlen →
          (w.extractLsb' 16 4).toNat = havalPassCount passes ∧ (w.extractLsb' 20 4).toNat = havalBits hlen / 32) ∧
        ((∀ passes hlen, i.desc ≠ .haval passes hlen) → w.extractLsb' 16 4 = 0 ∧ w.extractLsb' 20 4 = 0) ∧
        (buffered i < 256 → (w.extractLsb' 24 8).toNat = buffered i) ∧
        (w.extractLsb' 32 32).toNat = i.count % 2 ^ 32) ∧
      (∀ c, s.slotAt (slotIndex slot) = .crc c →
        w.extractLsb' 0 1 = 1 ∧ w.extractLsb' 1 1 = (if c.phase = .finalized then 1 else 0) ∧ w.extractLsb' 2 1 = 1 ∧
        w.extractLsb' 3 5 = 0 ∧ (w.extractLsb' 8 8).toNat = orderBits c.params.order ∧ w.extractLsb' 16 4 = 0 ∧
        w.extractLsb' 20 4 = (if c.params.reflect then 1 else 0) ∧ w.extractLsb' 24 8 = 0 ∧ w.extractLsb' 32 32 = 0)

/-- DESTROY empties the slot and keeps the cache (41_engine R129; 10_state R29). -/
def Obligations.DestroyEmptiesSlot : Prop :=
  ∀ (s : State) (slot : Byte), Ready s slot → s.slotAt (slotIndex slot) ≠ .empty →
    Completes s slot .empty [] s.cache (exec (.destroy slot) s)

/-! ## The CRC engine -/

/-- CRC_CONSTRUCT binds an empty slot to the parameter set, with its table, the initial register and phase `Active`
(43_crc R186, R187). -/
def Obligations.CrcConstructBindsParameters : Prop :=
  ∀ (s : State) (slot order : Byte) (refl : Bool) (poly init xorout : Word64) (p : CrcParams), Ready s slot →
    s.slotAt (slotIndex slot) = .empty → cacheWf s.cache = true →
    orderBits p.order = order.toNat → p.poly = poly → p.init = init → p.xorout = xorout → p.reflect = refl →
    crcParamsWf p = true →
      Completes s slot
        (.crc { params := p, table := genTable p, phase := .active,
                reg := if s.params.crcReflectInit = true ∧ refl = true then reflect order.toNat init else init })
        [] (cacheLookup s.cache p).2 (exec (.crcConstruct slot order refl poly init xorout) s)

/-- The CRC configuration checks in their order: CONFIG_CRC_ORDER for an order that is not one of 8, 16, …, 64, then
CONFIG_CRC_VALUE for a value of more than `order` bits (43_crc R185). -/
def Obligations.CrcConfigurationChecks : Prop :=
  ∀ (s : State) (slot order : Byte) (refl : Bool) (poly init xorout : Word64), Ready s slot →
    s.slotAt (slotIndex slot) = .empty →
      (order.toNat ∉ [8, 16, 24, 32, 40, 48, 56, 64] →
        Raises s slot .configCrcOrder (exec (.crcConstruct slot order refl poly init xorout) s)) ∧
      (order.toNat ∈ [8, 16, 24, 32, 40, 48, 56, 64] →
        (2 ^ order.toNat ≤ poly.toNat ∨ 2 ^ order.toNat ≤ init.toNat ∨ 2 ^ order.toNat ≤ xorout.toNat) →
        Raises s slot .configCrcValue (exec (.crcConstruct slot order refl poly init xorout) s))

/-- The cache lookup: a key that is there leaves the cache unchanged and answers its table; a key that is not is inserted
whole with its generated table, and no other entry changes; two keys that differ only in `init` and `xorout` have equal
tables (43_crc R184). -/
def Obligations.CacheLookupInsertsOnce : Prop :=
  ∀ (cache : List (CrcParams × CrcTable)) (p q : CrcParams) (t : CrcTable),
    (cacheFind cache p = some t → cacheLookup cache p = (t, cache)) ∧
    (cacheFind cache p = none →
      (cacheLookup cache p).1 = genTable p ∧ cacheFind (cacheLookup cache p).2 p = some (genTable p) ∧
      (q ≠ p → cacheFind (cacheLookup cache p).2 q = cacheFind cache q)) ∧
    ∀ init xorout : Word64, genTable { p with init := init, xorout := xorout } = genTable p

/-- Cold and warm cache: CRC_CONSTRUCT of equal parameters in two slots gives equal instances, and the second adds nothing
to the cache; and for CRC-32 on "123456789" only the reflection flag decides between the two results (43_crc R191). -/
def Obligations.ColdAndWarmCacheAgree : Prop :=
  (∀ (s t u : State) (slot1 slot2 order : Byte) (refl : Bool) (poly init xorout : Word64), s.inv = true →
    slotIndex slot1 ≠ slotIndex slot2 →
    exec (.crcConstruct slot1 order refl poly init xorout) s = .next t → t.fault = none →
    exec (.crcConstruct slot2 order refl poly init xorout) t = .next u → u.fault = none →
      u.cache = t.cache ∧
      ∃ c, u.slotAt (slotIndex slot1) = .crc c ∧ u.slotAt (slotIndex slot2) = .crc c ∧ c.table = genTable c.params) ∧
  (∀ refl : Bool,
    let p : CrcParams :=
      { order := .o32, poly := 0x04C11DB7, init := 0xFFFFFFFF, xorout := 0xFFFFFFFF, reflect := refl }
    beNat (crcResult (crcUpdate (crcInit Params.spec p (genTable p))
        [0x31, 0x32, 0x33, 0x34, 0x35, 0x36, 0x37, 0x38, 0x39])) =
      if refl then 0xCBF43926 else 0xFC891918)

/-- The table is linear: `T[a ^ b] = T[a] ^ T[b]` (43_crc R182). -/
def Obligations.CrcTableIsLinear : Prop :=
  ∀ (p : CrcParams) (a b : Byte),
    (genTable p).getD (a ^^^ b).toNat 0 = (genTable p).getD a.toNat 0 ^^^ (genTable p).getD b.toNat 0

/-- The table-driven update is the bit-serial one: a byte enters at the top of the register and is shifted through 8 times,
on the register itself or, in the reflected form, on its mirror image (43_crc R181, R188). -/
def Obligations.TableDrivenCrcIsBitSerial : Prop :=
  ∀ (c : CrcInst) (reg : Word64) (b : Byte), crcParamsWf c.params = true → c.table = genTable c.params →
    fitsOrder c.params.order reg = true →
      (c.params.reflect = false →
        crcByte c reg b =
          crcShifts (orderBits c.params.order) c.params.poly 8
            (reg ^^^ (b.setWidth 64 <<< (orderBits c.params.order - 8)))) ∧
      (c.params.reflect = true →
        reflect (orderBits c.params.order) (crcByte c reg b) =
          crcShifts (orderBits c.params.order) c.params.poly 8
            (reflect (orderBits c.params.order) reg ^^^ (reflect 8 (b.setWidth 64) <<< (orderBits c.params.order - 8))))

/-- UPDATE of an active CRC slot threads the bytes through the register, one table lookup a byte, in either form, and any
split of the bytes gives the same register (43_crc R188). -/
def Obligations.CrcUpdateThreadsBytes : Prop :=
  ∀ (s : State) (slot : Byte) (c : CrcInst), Ready s slot → s.slotAt (slotIndex slot) = .crc c → c.phase = .active →
    ∃ reg : List Byte → Word64,
      (∀ data, Completes s slot (.crc { c with reg := reg data }) [] s.cache (exec (.update slot data) s)) ∧
      reg [] = c.reg ∧
      (∀ data b, reg (data ++ [b]) =
        if c.params.reflect then
          (reg data >>> 8) ^^^ c.table.getD ((reg data ^^^ b.setWidth 64) &&& 0xFF).toNat 0
        else
          ((reg data <<< 8) &&& mask (orderBits c.params.order)) ^^^
            c.table.getD (((reg data >>> (orderBits c.params.order - 8)) ^^^ b.setWidth 64) &&& 0xFF).toNat 0) ∧
      (∀ x y t, exec (.update slot x) s = .next t →
        Completes t slot (.crc { c with reg := reg (x ++ y) }) [] s.cache (exec (.update slot y) t))

/-- FINALIZE of an active CRC slot answers the register XOR `xorout` as `order/8` bytes, most significant first, and leaves
the register (43_crc R189). -/
def Obligations.CrcFinalizeAnswersRegister : Prop :=
  ∀ (s : State) (slot : Byte) (c : CrcInst), Ready s slot → s.slotAt (slotIndex slot) = .crc c → c.phase = .active →
    ∃ bytes : List Byte, bytes.length = orderBits c.params.order / 8 ∧
      beNat bytes = ((c.reg ^^^ c.params.xorout) &&& mask (orderBits c.params.order)).toNat ∧
      Completes s slot (.crc { c with phase := .finalized }) bytes s.cache (exec (.finalize slot) s)

/-! ## Padding and output -/

/-- The tail: the buffered bytes, the marker, the least number of zeros that fills a block, the trailer (HAVAL only) and the
length field (42_padding R155, R156). -/
def Obligations.PadTailHasLeastZeroFill : Prop :=
  ∀ (p : Params) (a : Alg) (t : List Byte) (count : Nat),
    ∃ k, padTail p a t count =
        t ++ [(descriptor p a).marker] ++ List.replicate k 0 ++ (descriptor p a).trailer ++
          lenField (descriptor p a) (8 * (count + t.length)) ∧
      (t.length + 1 + k + ((descriptor p a).trailer.length + (descriptor p a).lenBytes)) % blockSize a = 0 ∧
      (∀ k', k' < k →
        (t.length + 1 + k' + ((descriptor p a).trailer.length + (descriptor p a).lenBytes)) % blockSize a ≠ 0) ∧
      ((∀ passes hlen, a ≠ .haval passes hlen) → (descriptor p a).trailer = []) ∧
      (∀ passes hlen, a = .haval passes hlen →
        (descriptor p a).trailer = havalCfg (havalPassCount passes) (havalBits hlen))

/-- The number of final blocks depends only on `buffered`: one up to the algorithm's bound, two beyond it
(42_padding R158). -/
def Obligations.FinalBlockCountByBuffered : Prop :=
  ∀ (p : Params) (a : Alg) (t : List Byte) (count : Nat), t.length < blockSize a →
    (t.length ≤ oneBlockUpTo a → (padTail p a t count).length = blockSize a) ∧
    (oneBlockUpTo a < t.length → (padTail p a t count).length = 2 * blockSize a)

/-- The last bytes of the tail are the length field, and it carries the bit count of the message modulo `2^(8L)`
(42_padding R153, R154). -/
def Obligations.LengthFieldCarriesBitCount : Prop :=
  ∀ (p : Params) (a : Alg) (t : List Byte) (count : Nat),
    ∃ field : List Byte, field <:+ padTail p a t count ∧ field.length = (descriptor p a).lenBytes ∧
      ((descriptor p a).lenOrder = .le →
        leNat field = 8 * (count + t.length) % 2 ^ (8 * (descriptor p a).lenBytes)) ∧
      ((descriptor p a).lenOrder = .be →
        beNat field = 8 * (count + t.length) % 2 ^ (8 * (descriptor p a).lenBytes))

/-- The HAVAL configuration bytes of every legal instance (42_padding R157). -/
def Obligations.HavalConfigurationBytes : Prop :=
  ∀ (p : Params) (passes : HavalPasses) (hlen : HavalLen),
    (descriptor p (.haval passes hlen)).trailer =
      [match passes with
        | .three => 0x19
        | .four => 0x21
        | .five => 0x29,
       match hlen with
        | .b128 => 0x20
        | .b160 => 0x28
        | .b192 => 0x30
        | .b224 => 0x38
        | .b256 => 0x40]

/-! ## The conversion layer -/

/-- The round-trip laws of the conversion layer (40_conversion R107), on every byte sequence that is a whole number of words;
assembly of any other is refused, as the rules of assembly say (40_conversion R101, R102). -/
def Obligations.ConversionRoundTrips : Prop :=
  (∀ w ∈ [8, 16, 32, 64], ∀ (xs : List (BitVec w)) (bs : List Byte),
    leWords w (xs.flatMap leBytes) = some xs ∧ beWords w (xs.flatMap beBytes) = some xs ∧
    (bs.length % (w / 8) = 0 →
      (∃ ws, leWords w bs = some ws ∧ ws.flatMap leBytes = bs) ∧ ∃ ws, beWords w bs = some ws ∧ ws.flatMap beBytes = bs) ∧
    (bs.length % (w / 8) ≠ 0 → leWords w bs = none ∧ beWords w bs = none)) ∧
  (∀ w ∈ [8, 16, 32, 64], ∀ (x : BitVec w) (a b n : Nat),
    rotr (rotl x n) n = x ∧ rotl x (a + b) = rotl (rotl x a) b ∧ (0 < n → n < w → rotl x n = rotr x (w - n)))

/-- Rotation is by `k = n mod w`: left it is `(x << k) | (x >> (w - k))`, or `x` if `k = 0`, and right it is left by
`(w - k) mod w`; so bit `i` of the operand is bit `(i + n) mod w` of the left rotation, and the reverse of the right one
(40_conversion R104, R105). -/
def Obligations.RotationIsByModulo : Prop :=
  ∀ (w : Nat) (x : BitVec w) (n : Nat), 0 < w →
    (n % w = 0 → rotl x n = x) ∧ (0 < n % w → rotl x n = x <<< (n % w) ||| x >>> (w - n % w)) ∧
    rotr x n = rotl x ((w - n % w) % w) ∧
    ∀ i, i < w → (rotl x n).getLsbD ((i + n) % w) = x.getLsbD i ∧ (rotr x n).getLsbD i = x.getLsbD ((i + n) % w)

/-- Bit reversal: bit `n-1-i` of the result is bit `i` of the operand; it is its own inverse; and the masks are exact up to
64 bits (40_conversion R106, R108). -/
def Obligations.ReflectReversesBits : Prop :=
  ∀ n ∈ [8, 16, 24, 32, 40, 48, 56, 64], ∀ v : Word64,
    (∀ i, i < n → (reflect n v).getLsbD (n - 1 - i) = v.getLsbD i) ∧
    (reflect n v).toNat < 2 ^ n ∧ (v.toNat < 2 ^ n → reflect n (reflect n v) = v) ∧
    (∀ m, 1 ≤ m → m ≤ 64 → (mask m).toNat = 2 ^ m - 1)

/-! ## The cores -/

/-- Every core takes an accumulator of its shape and a block to an accumulator of the same shape (10_state R24;
41_engine R133). -/
def Obligations.CompressKeepsAccumulatorShape : Prop :=
  ∀ (a : Alg) (acc : Acc) (block : List Byte), accShape a acc = true → block.length = blockSize a →
    accShape a (compress a acc block) = true

/-- The message schedules satisfy their recurrences: SHA-1's on 80 words and SHA-2's on as many words as round constants
(45_sha R232, R238). -/
def Obligations.ShaSchedulesSatisfyRecurrence : Prop :=
  (∀ block : List Byte, block.length = 64 →
    (schedule sha1Next 64 block).length = 80 ∧ beWords 32 block = some ((schedule sha1Next 64 block).take 16) ∧
    ∀ t, 16 ≤ t → t < 80 →
      (schedule sha1Next 64 block).getD t 0 =
        rotl ((schedule sha1Next 64 block).getD (t - 3) 0 ^^^ (schedule sha1Next 64 block).getD (t - 8) 0 ^^^
          (schedule sha1Next 64 block).getD (t - 14) 0 ^^^ (schedule sha1Next 64 block).getD (t - 16) 0) 1) ∧
  (∀ w ∈ [32, 64], ∀ (p : Sha2Params w) (n : Nat) (block : List Byte), block.length = 2 * w →
    (schedule (sha2Next p) n block).length = 16 + n ∧ beWords w block = some ((schedule (sha2Next p) n block).take 16) ∧
    ∀ t, 16 ≤ t → t < 16 + n →
      (schedule (sha2Next p) n block).getD t 0 =
        p.smallSigma1 ((schedule (sha2Next p) n block).getD (t - 2) 0) + (schedule (sha2Next p) n block).getD (t - 7) 0 +
          p.smallSigma0 ((schedule (sha2Next p) n block).getD (t - 15) 0) +
          (schedule (sha2Next p) n block).getD (t - 16) 0)

/-- The two lines of RIPEMD-128 and of RIPEMD-160 are independent until they are combined: neither reads the other
(46_ripemd R278, R280, R282). -/
def Obligations.RipemdLinesAreIndependent : Prop :=
  ∀ (x : List Word32) (js : List Nat),
    (∀ l r l' r' : Regs4,
      (js.foldl (ripemd128Step x) (l, r)).1 = (js.foldl (ripemd128Step x) (l, r')).1 ∧
      (js.foldl (ripemd128Step x) (l, r)).2 = (js.foldl (ripemd128Step x) (l', r)).2) ∧
    (∀ l r l' r' : Regs5,
      (js.foldl (ripemd160Step x) (l, r)).1 = (js.foldl (ripemd160Step x) (l, r')).1 ∧
      (js.foldl (ripemd160Step x) (l, r)).2 = (js.foldl (ripemd160Step x) (l', r)).2)

/-- The layers of Whirlpool's round function on every matrix: gamma, pi, theta and sigma entry by entry
(47_whirlpool R304). -/
def Obligations.WhirlpoolLayersEntryByEntry : Prop :=
  ∀ (m k : List Byte) (i j : Nat), m.length = 64 → k.length = 64 → i < 8 → j < 8 →
    whirlpoolAt (whirlpoolGamma m) i j = whirlpoolSbox.getD (whirlpoolAt m i j).toNat 0 ∧
    whirlpoolAt (whirlpoolPi m) ((i + j) % 8) j = whirlpoolAt m i j ∧
    whirlpoolAt (whirlpoolTheta m) i j =
      (List.range 8).foldl
        (fun x t => x ^^^ gfMul (whirlpoolAt m i t) (whirlpoolC.getD (((j : Int) - (t : Int)) % 8).toNat 0)) 0 ∧
    whirlpoolAt (whirlpoolSigma k m) i j = whirlpoolAt m i j ^^^ whirlpoolAt k i j

/-- The Whirlpool S-box table is the one the mini-boxes give, and the round constants are its rows of eight
(47_whirlpool R302, R303, R305). -/
def Obligations.WhirlpoolSboxFromMiniBoxes : Prop :=
  (∀ x : Byte, (whirlpoolSbox.getD x.toNat 0).toNat = miniSbox x.toNat) ∧
  ∀ r ∈ List.range' 1 10, ∀ i ∈ List.range 8, ∀ j ∈ List.range 8,
    whirlpoolAt (whirlpoolRC r) i j = if i = 0 then whirlpoolSbox.getD (8 * (r - 1) + j) 0 else 0

/-- A Tiger pass is the eight rounds of its rule with the registers named, and the core is its three passes
(48_tiger R334, R337). -/
def Obligations.TigerPassesAsWritten : Prop :=
  ∀ (t : TigerBoxes) (mul a0 b0 c0 x0 x1 x2 x3 x4 x5 x6 x7 : Word64),
    (let r0 := tigerRound t mul { a := a0, b := b0, c := c0 } x0
     let r1 := tigerRound t mul { a := r0.b, b := r0.c, c := r0.a } x1
     let r2 := tigerRound t mul { a := r1.b, b := r1.c, c := r1.a } x2
     let r3 := tigerRound t mul { a := r2.b, b := r2.c, c := r2.a } x3
     let r4 := tigerRound t mul { a := r3.b, b := r3.c, c := r3.a } x4
     let r5 := tigerRound t mul { a := r4.b, b := r4.c, c := r4.a } x5
     let r6 := tigerRound t mul { a := r5.b, b := r5.c, c := r5.a } x6
     let r7 := tigerRound t mul { a := r6.b, b := r6.c, c := r6.a } x7
     tigerPass t [x0, x1, x2, x3, x4, x5, x6, x7] mul { a := a0, b := b0, c := c0 } =
       { a := r7.c, b := r7.a, c := r7.b }) ∧
    (let x := [x0, x1, x2, x3, x4, x5, x6, x7]
     let p := tigerPass t x 5 { a := a0, b := b0, c := c0 }
     let q := tigerPass t (tigerSchedule x) 7 { a := p.c, b := p.a, c := p.b }
     let r := tigerPass t (tigerSchedule (tigerSchedule x)) 9 { a := q.c, b := q.a, c := q.b }
     tigerCore t [a0, b0, c0] x = [r.c ^^^ a0, r.a - b0, r.b + c0])

/-- Every step of HAVAL reads `x_k = t[(k - i) mod 8]` and writes `t[(7 - i) mod 8]` only (49_haval R366). -/
def Obligations.HavalStepRegisters : Prop :=
  ∀ (passes : HavalPasses) (w t : List Word32) (p i : Nat), i < 32 → t.length = 8 →
    let x : Nat → Word32 := fun k => t.getD (((k : Int) - (i : Int)) % 8).toNat 0
    (havalStep passes w p t i).length = 8 ∧
    (havalStep passes w p t i).getD (((7 : Int) - (i : Int)) % 8).toNat 0 =
      rotr (havalRoundF passes p x) 7 + rotr (x 7) 11 + w.getD ((havalOrder p).getD i 0) 0 + havalK p i ∧
    ∀ j, j ≠ (((7 : Int) - (i : Int)) % 8).toNat → (havalStep passes w p t i).getD j 0 = t.getD j 0

/-! ## The whole machine -/

/-- Device reset sets the whole record, from any state, the fault state included, out of which no step and no command leads
(70_reset R440). -/
def Obligations.DeviceResetClearsEverything : Prop :=
  ∀ s : State,
    (∀ k, (deviceReset s).slotAt k = .empty) ∧ (deviceReset s).nSlots = s.nSlots ∧ (deviceReset s).cache = [] ∧
    (deviceReset s).fault = none ∧ (deviceReset s).ncmd = 0 ∧ (deviceReset s).commands = [] ∧
    (deviceReset s).responses = [] ∧ (deviceReset s).params = s.params ∧
    ∀ r, s.fault = some r → (∀ t, step s ≠ .next t) ∧ ∀ (i : Instr) (t : State), exec i s ≠ .next t

/-- The invariant holds after device reset of every device: each slot count from 1 to 256 and each value of the open
parameters, and so of `State.reset`, whose slot count is the model's choice (log entry 1). The clause of the invariant that
the cache's keys strictly rise is the model's choice too (log entry 11). -/
def Obligations.InvariantHoldsAtReset : Prop :=
  (∀ (n : Nat) (p : Params), 1 ≤ n → n ≤ 256 → (State.resetOf n p).inv = true) ∧ State.reset.inv = true

/-- Every step keeps the invariant: slot count, well-formed instances, tables equal to the generated ones, the cache
complete, the fault record correct (10_state R24, R25, R28, R29, R31). One clause is the model's choice and no rule's: the
cache's keys strictly rise, the canonical form in which the finite map of R29 is held (log entry 11). -/
def Obligations.StepKeepsInvariant : Prop :=
  ∀ s t : State, s.inv = true → step s = .next t → t.inv = true

/-- A command changes no slot but the one it names, and never the number of slots, the parameters or the unconsumed stream;
the cache only CRC_CONSTRUCT may change (20_memory R64; 10_state R29). -/
def Obligations.CommandChangesOnlyItsSlot : Prop :=
  ∀ (s t : State) (i : Instr), exec i s = .next t →
    (∀ j, j ≠ slotIndex i.slot → t.slotAt j = s.slotAt j) ∧ t.nSlots = s.nSlots ∧ t.params = s.params ∧
    t.commands = s.commands ∧
    ((∀ slot order refl poly init xorout, i ≠ .crcConstruct slot order refl poly init xorout) → t.cache = s.cache)

/-- What a slot holds and answers depends only on the commands sent to it: dropping every command to other slots from a run
that completes leaves the slot's contents and its responses as they were (20_memory R64). -/
def Obligations.SlotIgnoresOtherSlotsCommands : Prop :=
  ∀ (commands : List Instr) (s t : State) (log : List (Byte × List Byte)) (slot : Byte), cacheWf s.cache = true →
    runLog commands s = some (t, log) → t.fault = none →
      ∃ u, runLog (commands.filter fun i => i.slot == slot) s = some (u, log.filter fun e => e.1 == slot) ∧
        u.fault = none ∧ u.slotAt (slotIndex slot) = t.slotAt (slotIndex slot)

/-- Two commands to different slots that complete may be sent in either order (20_memory R64; 41_engine R132). That the two
caches are equal as lists, and not only as finite maps, rests on the canonical form in which the model holds the cache, the
model's choice (log entry 11). -/
def Obligations.CommandsToDistinctSlotsCommute : Prop :=
  ∀ (s a t : State) (i j : Instr), cacheWf s.cache = true → slotIndex i.slot ≠ slotIndex j.slot →
    exec i s = .next a → a.fault = none → exec j a = .next t → t.fault = none →
      ∃ b u, exec j s = .next b ∧ b.fault = none ∧ exec i b = .next u ∧ u.fault = none ∧ u.slots = t.slots ∧
        u.cache = t.cache ∧ u.ncmd = t.ncmd

/-- The cache is not observable: with any correct cache in place of another, every command answers the same and leaves the
same state but for the cache (10_state R30), and the cache it leaves is correct again, each entry the generated table of its
key (R29). That a correct cache's keys strictly rise, in the premises and in the conclusion, is the model's choice and no
rule's: the canonical form in which the finite map of R29 is held (log entry 11). -/
def Obligations.CacheIsNotObservable : Prop :=
  ∀ (i : Instr) (s : State) (other : List (CrcParams × CrcTable)), s.fault = none → cacheWf s.cache = true →
    cacheWf other = true →
      ∃ t t', exec i s = .next t ∧ exec i { s with cache := other } = .next t' ∧ t' = { t with cache := t'.cache } ∧
        cacheWf t'.cache = true

/-- A command that fails has no effect but fault entry (60_exceptions R404). -/
def Obligations.FaultEntryIsPrecise : Prop :=
  ∀ (s t : State) (i : Instr), s.fault = none → exec i s = .next t → t.fault ≠ none →
    ∃ e, Raises s i.slot e (exec i s)

/-- Each command appends exactly one response: 0x00 and its payload if it completes, one nonzero error byte if it fails
(30_encoding R84, R85). -/
def Obligations.EachCommandAppendsOneResponse : Prop :=
  ∀ (s : State) (i : Instr), s.inv = true → s.fault = none →
    ∃ t, exec i s = .next t ∧
      ((t.fault = none ∧ ∃ payload, t.responses = s.responses ++ 0x00 :: payload ∧
          payload.length = payloadLength i s) ∨
        ∃ r, t.fault = some r ∧ errorByte r.code ≠ 0x00 ∧ t.responses = s.responses ++ [errorByte r.code])
end

