-- ==== Sys2Proof/Laws/Conv.lean ====
section
/-! SUPPORT. Laws of the conversion layer: byte sequences and numbers, words and pieces, rotation and bit reversal. -/

namespace Sys2Proof.Machine

@[simp] theorem leBytesOf_length (n x : Nat) : (leBytesOf n x).length = n := by
  induction n generalizing x with
  | zero => rfl
  | succ n ih => simp [leBytesOf, ih]

@[simp] theorem beBytesOf_length (n x : Nat) : (beBytesOf n x).length = n := by simp [beBytesOf]

@[simp] theorem leBytes_length {w : Nat} (x : BitVec w) : (leBytes x).length = w / 8 := leBytesOf_length _ _

@[simp] theorem beBytes_length {w : Nat} (x : BitVec w) : (beBytes x).length = w / 8 := beBytesOf_length _ _

/-- A byte sequence spells a number below `256^length`. -/
theorem leNat_lt (bs : List Byte) : leNat bs < 256 ^ bs.length := by
  induction bs with
  | nil => simp [leNat]
  | cons b bs ih =>
    have hb : b.toNat < 256 := b.isLt
    simp only [leNat, List.length_cons, Nat.pow_succ]
    omega

theorem beNat_lt (bs : List Byte) : beNat bs < 256 ^ bs.length := by
  simpa [beNat] using leNat_lt bs.reverse

/-- Writing a number and reading it back keeps it modulo `256^n`. -/
theorem leNat_leBytesOf (n x : Nat) : leNat (leBytesOf n x) = x % 256 ^ n := by
  induction n generalizing x with
  | zero => simp [leBytesOf, leNat, Nat.mod_one]
  | succ n ih =>
    rw [leBytesOf, leNat, ih, BitVec.toNat_ofNat, show 256 ^ (n + 1) = 256 * 256 ^ n from Nat.pow_succ', Nat.mod_mul]

theorem beNat_beBytesOf (n x : Nat) : beNat (beBytesOf n x) = x % 256 ^ n := by
  simp [beNat, beBytesOf, leNat_leBytesOf]

/-- Reading bytes and writing the number back gives the bytes. -/
theorem leBytesOf_leNat (bs : List Byte) : leBytesOf bs.length (leNat bs) = bs := by
  induction bs with
  | nil => rfl
  | cons b bs ih =>
    have hb : b.toNat < 256 := b.isLt
    simp only [List.length_cons, leBytesOf, leNat, List.cons.injEq]
    refine ⟨?_, ?_⟩
    · apply BitVec.eq_of_toNat_eq
      simp only [BitVec.toNat_ofNat]
      omega
    · rw [show (b.toNat + 256 * leNat bs) / 256 = leNat bs by omega, ih]

theorem beBytesOf_beNat (bs : List Byte) : beBytesOf bs.length (beNat bs) = bs := by
  have h := leBytesOf_leNat bs.reverse
  simp only [List.length_reverse] at h
  simp [beBytesOf, beNat, h]

/-- A word of a whole number of bytes comes back from its bytes. -/
theorem ofNat_leNat_leBytes {w : Nat} (hw : w % 8 = 0) (x : BitVec w) : BitVec.ofNat w (leNat (leBytes x)) = x := by
  apply BitVec.eq_of_toNat_eq
  have hx := x.isLt
  have hp : (256 : Nat) ^ (w / 8) = 2 ^ w := by
    rw [show (256 : Nat) = 2 ^ 8 by rfl, ← Nat.pow_mul, show 8 * (w / 8) = w by omega]
  simp [leBytes, leNat_leBytesOf, hp, Nat.mod_eq_of_lt hx]

theorem ofNat_beNat_beBytes {w : Nat} (hw : w % 8 = 0) (x : BitVec w) : BitVec.ofNat w (beNat (beBytes x)) = x := by
  apply BitVec.eq_of_toNat_eq
  have hx := x.isLt
  have hp : (256 : Nat) ^ (w / 8) = 2 ^ w := by
    rw [show (256 : Nat) = 2 ^ 8 by rfl, ← Nat.pow_mul, show 8 * (w / 8) = w by omega]
  simp [beBytes, beNat_beBytesOf, hp, Nat.mod_eq_of_lt hx]

/-- The bytes of a word assembled from `w/8` bytes are those bytes. -/
theorem leBytes_ofNat_leNat {w : Nat} (hw : w % 8 = 0) (bs : List Byte) (h : bs.length = w / 8) :
    leBytes (BitVec.ofNat w (leNat bs)) = bs := by
  have hlt := leNat_lt bs
  rw [show (256 : Nat) = 2 ^ 8 by rfl, ← Nat.pow_mul, h, show 8 * (w / 8) = w by omega] at hlt
  rw [leBytes, BitVec.toNat_ofNat, Nat.mod_eq_of_lt hlt, ← h, leBytesOf_leNat]

theorem beBytes_ofNat_beNat {w : Nat} (hw : w % 8 = 0) (bs : List Byte) (h : bs.length = w / 8) :
    beBytes (BitVec.ofNat w (beNat bs)) = bs := by
  have hlt := beNat_lt bs
  rw [show (256 : Nat) = 2 ^ 8 by rfl, ← Nat.pow_mul, h, show 8 * (w / 8) = w by omega] at hlt
  rw [beBytes, BitVec.toNat_ofNat, Nat.mod_eq_of_lt hlt, ← h, beBytesOf_beNat]

/-! ### Pieces -/

@[simp] theorem pieces_length {α : Type} (n k : Nat) (xs : List α) : (pieces n k xs).length = k := by
  induction k generalizing xs with
  | zero => rfl
  | succ k ih => simp [pieces, ih]

/-- Cutting the concatenation of equal pieces gives the pieces. -/
theorem pieces_flatMap {α β : Type} (f : α → List β) (n : Nat) (hf : ∀ a, (f a).length = n) (xs : List α) :
    pieces n xs.length (xs.flatMap f) = xs.map f := by
  induction xs with
  | nil => rfl
  | cons x xs ih => simp [pieces, ← hf x, ← ih]

/-- The pieces of a whole number of pieces, put together again. -/
theorem pieces_flatten {α : Type} (n k : Nat) (xs : List α) (h : xs.length = n * k) : (pieces n k xs).flatten = xs := by
  induction k generalizing xs with
  | zero => simpa [pieces, eq_comm] using h
  | succ k ih =>
    have : (xs.drop n).length = n * k := by simp [h, Nat.mul_succ]
    simp [pieces, ih _ this]

theorem pieces_length_of_mem {α : Type} (n k : Nat) (xs : List α) (h : n * k ≤ xs.length) :
    ∀ p ∈ pieces n k xs, p.length = n := by
  induction k generalizing xs with
  | zero => simp [pieces]
  | succ k ih =>
    rw [Nat.mul_succ] at h
    intro p hp
    simp only [pieces, List.mem_cons] at hp
    rcases hp with rfl | hp
    · simp; omega
    · exact ih (xs.drop n) (by simp; omega) p hp

/-! ### Assembly -/

theorem leWords_whole {w : Nat} {bs : List Byte} (h : bs.length % (w / 8) = 0) :
    leWords w bs = some ((pieces (w / 8) (bs.length / (w / 8)) bs).map fun p => BitVec.ofNat w (leNat p)) := if_pos h

theorem beWords_whole {w : Nat} {bs : List Byte} (h : bs.length % (w / 8) = 0) :
    beWords w bs = some ((pieces (w / 8) (bs.length / (w / 8)) bs).map fun p => BitVec.ofNat w (beNat p)) := if_pos h

/-- Assembly is refused exactly on a length that is no whole number of words (40_conversion R101). -/
theorem leWords_refused (w : Nat) (bs : List Byte) : leWords w bs = none ↔ bs.length % (w / 8) ≠ 0 := by
  simp [leWords, assemble]

/-- The same of big-endian assembly (40_conversion R102). -/
theorem beWords_refused (w : Nat) (bs : List Byte) : beWords w bs = none ↔ bs.length % (w / 8) ≠ 0 := by
  simp [beWords, assemble]

@[simp] theorem blockWords_some {w : Nat} (ws : List (BitVec w)) : blockWords (some ws) = ws := rfl

/-- A whole block is read as all of its words, little-endian. -/
theorem blockWords_leWords_length {w : Nat} {bs : List Byte} (h : bs.length % (w / 8) = 0) :
    (blockWords (leWords w bs)).length = bs.length / (w / 8) := by simp [leWords_whole h]

/-- A whole block is read as all of its words, big-endian. -/
theorem blockWords_beWords_length {w : Nat} {bs : List Byte} (h : bs.length % (w / 8) = 0) :
    (blockWords (beWords w bs)).length = bs.length / (w / 8) := by simp [beWords_whole h]

/-! ### Rotation -/

/-- `rotl` is the library's rotation (40_conversion R104). -/
theorem rotl_eq_rotateLeft {w : Nat} (x : BitVec w) (n : Nat) : rotl x n = x.rotateLeft n := by
  unfold rotl
  split
  · next h => simp [BitVec.rotateLeft_def, h, BitVec.ushiftRight_eq_zero]
  · rw [BitVec.rotateLeft_def]

theorem rotl_mod {w : Nat} (x : BitVec w) (n : Nat) : rotl x (n % w) = rotl x n := by simp [rotl]

/-! ### Bit reversal and masks -/

/-- Bit `j` of the reversed number is bit `n-1-j` of the operand (40_conversion R106). -/
theorem testBit_reflectNat (n v j : Nat) : (reflectNat n v).testBit j = (decide (j < n) && v.testBit (n - 1 - j)) := by
  induction n generalizing v j with
  | zero => simp [reflectNat]
  | succ n ih =>
    have hlt : reflectNat n (v / 2) < 2 ^ n := by
      refine Nat.lt_pow_two_of_testBit _ fun i hi => ?_
      rw [ih]
      simp [Nat.not_lt.mpr hi]
    rw [reflectNat, Nat.mul_comm, Nat.testBit_two_pow_mul_add _ hlt, ih]
    rcases Nat.lt_trichotomy j n with h | h | h
    · simp [h, Nat.lt_succ_of_lt h, Nat.testBit_div_two, show n - 1 - j + 1 = n - j by omega]
    · subst h
      simp [Nat.testBit_zero]
    · have h1 : ¬j < n := by omega
      have h2 : ¬j < n + 1 := by omega
      obtain ⟨d, hd⟩ : ∃ d, j - n = d + 1 := ⟨j - n - 1, by omega⟩
      have h3 : v % 2 / 2 = 0 := by omega
      simp [h1, h2, hd, Nat.testBit_add_one, h3]

/-- Bit `j` of `reflect n v`. -/
theorem getLsbD_reflect {n : Nat} (h : n ≤ 64) (v : Word64) (j : Nat) :
    (reflect n v).getLsbD j = (decide (j < n) && v.getLsbD (n - 1 - j)) := by
  simp only [reflect, BitVec.getLsbD_ofNat, testBit_reflectNat, BitVec.testBit_toNat]
  by_cases hj : j < n
  · simp [hj, Nat.lt_of_lt_of_le hj h]
  · simp [hj]

/-- Bit `j` of `mask n`. -/
theorem getLsbD_mask {n : Nat} (h : n ≤ 64) (j : Nat) : (mask n).getLsbD j = decide (j < n) := by
  simp only [mask, BitVec.getLsbD_ofNat, Nat.testBit_two_pow_sub_one]
  by_cases hj : j < n
  · simp [hj, Nat.lt_of_lt_of_le hj h]
  · simp [hj]

end Sys2Proof.Machine
end

