-- ==== Sys2Proof/Laws/Crc.lean ====
section
/-! SUPPORT. Laws of the table cache (43_crc R184), of the parameter checks (R185) and of the shift register that makes the
table (R181): it is linear, and a register with a zero top byte is only shifted. -/

namespace Sys2Proof.Machine

/-! ### The cache -/

theorem orderBits_injective {a b : CrcOrder} (h : orderBits a = orderBits b) : a = b := by
  cases a <;> cases b <;> first | rfl | (exact absurd h (by decide))

theorem orderBits_bounds (o : CrcOrder) : 8 ≤ orderBits o ∧ orderBits o ≤ 64 ∧ orderBits o % 8 = 0 := by
  cases o <;> decide

/-- Two parameter records with one key are equal (log entry 11). -/
theorem cacheKey_injective {p q : CrcParams} (h : cacheKey p = cacheKey q) : p = q := by
  obtain ⟨o, y, i, x, r⟩ := p
  obtain ⟨o', y', i', x', r'⟩ := q
  have hy := y.isLt
  have hy' := y'.isLt
  have hi := i.isLt
  have hi' := i'.isLt
  have hx := x.isLt
  have hx' := x'.isLt
  have hr : r.toNat < 2 := Bool.toNat_lt r
  have hr' : r'.toNat < 2 := Bool.toNat_lt r'
  simp only [cacheKey] at h
  have e1 : r.toNat = r'.toNat := by omega
  have e2 : x.toNat = x'.toNat := by omega
  have e3 : i.toNat = i'.toNat := by omega
  have e4 : y.toNat = y'.toNat := by omega
  have e5 : orderBits o = orderBits o' := by omega
  obtain rfl := orderBits_injective e5
  obtain rfl := BitVec.eq_of_toNat_eq e4
  obtain rfl := BitVec.eq_of_toNat_eq e3
  obtain rfl := BitVec.eq_of_toNat_eq e2
  cases r <;> cases r' <;> first | rfl | cases e1

/-- An inserted key is found with its table, if it was not there. -/
theorem cacheFind_cacheInsert_same {cache : List (CrcParams × CrcTable)} {p : CrcParams} (t : CrcTable)
    (h : cacheFind cache p = none) : cacheFind (cacheInsert cache p t) p = some t := by
  induction cache with
  | nil => simp [cacheInsert, cacheFind]
  | cons e rest ih =>
    obtain ⟨q, u⟩ := e
    simp only [cacheFind] at h
    split at h
    · cases h
    · next hq =>
      simp only [cacheInsert]
      split
      · simp [cacheFind]
      · simp [cacheFind, hq, ih h]

/-- Inserting one key leaves the others as they were. -/
theorem cacheFind_cacheInsert_ne (cache : List (CrcParams × CrcTable)) {p q : CrcParams} (t : CrcTable) (h : q ≠ p) :
    cacheFind (cacheInsert cache p t) q = cacheFind cache q := by
  induction cache with
  | nil => simp [cacheInsert, cacheFind, Ne.symm h]
  | cons e rest ih =>
    obtain ⟨k, u⟩ := e
    simp only [cacheInsert]
    split
    · simp [cacheFind, Ne.symm h]
    · simp [cacheFind, ih]

theorem mem_cacheInsert {cache : List (CrcParams × CrcTable)} {p : CrcParams} {t : CrcTable} {e : CrcParams × CrcTable} :
    e ∈ cacheInsert cache p t ↔ e = (p, t) ∨ e ∈ cache := by
  induction cache with
  | nil => simp [cacheInsert]
  | cons f rest ih =>
    simp only [cacheInsert]
    split
    · simp
    · simp [ih]; tauto

theorem cacheFind_mem {cache : List (CrcParams × CrcTable)} {p : CrcParams} {t : CrcTable}
    (h : cacheFind cache p = some t) : (p, t) ∈ cache := by
  induction cache with
  | nil => cases h
  | cons e rest ih =>
    obtain ⟨q, u⟩ := e
    simp only [cacheFind] at h
    split at h
    · next hq => cases h; simp [hq]
    · simp [ih h]

theorem cacheFind_none {cache : List (CrcParams × CrcTable)} {p : CrcParams} (h : cacheFind cache p = none) :
    ∀ e ∈ cache, e.1 ≠ p := by
  induction cache with
  | nil => simp
  | cons e rest ih =>
    obtain ⟨q, u⟩ := e
    simp only [cacheFind] at h
    split at h
    · cases h
    · next hq =>
      intro f hf
      rcases List.mem_cons.mp hf with rfl | hf
      · exact hq
      · exact ih h f hf

/-- Inserting a new key keeps the keys strictly rising (log entry 11). -/
theorem keysRise_cacheInsert {cache : List (CrcParams × CrcTable)} {p : CrcParams} (t : CrcTable)
    (hr : keysRise cache = true) (hn : cacheFind cache p = none) : keysRise (cacheInsert cache p t) = true := by
  induction cache with
  | nil => simp [cacheInsert, keysRise]
  | cons e rest ih =>
    obtain ⟨q, u⟩ := e
    have hq : q ≠ p := cacheFind_none hn (q, u) (by simp)
    simp only [keysRise, Bool.and_eq_true, List.all_eq_true, decide_eq_true_eq] at hr
    simp only [cacheInsert]
    split
    · next hlt =>
      simp only [keysRise, Bool.and_eq_true, List.all_eq_true, decide_eq_true_eq]
      refine ⟨fun f hf => ?_, hr⟩
      rcases List.mem_cons.mp hf with rfl | hf
      · exact hlt
      · exact Nat.lt_trans hlt (hr.1 f hf)
    · next hge =>
      have hn' : cacheFind rest p = none := by simpa [cacheFind, hq] using hn
      have hlt : cacheKey q < cacheKey p := by
        have : cacheKey q ≠ cacheKey p := fun h => hq (cacheKey_injective h)
        omega
      simp only [keysRise, Bool.and_eq_true, List.all_eq_true, decide_eq_true_eq]
      refine ⟨fun f hf => ?_, ih hr.2 hn'⟩
      rcases mem_cacheInsert.mp hf with rfl | hf
      · exact hlt
      · exact hr.1 f hf

/-- A correct cache answers the generated table (43_crc R184). -/
theorem cacheLookup_fst {cache : List (CrcParams × CrcTable)} (p : CrcParams) (h : cacheWf cache = true) :
    (cacheLookup cache p).1 = genTable p := by
  unfold cacheLookup
  cases hf : cacheFind cache p with
  | none => rfl
  | some t =>
    simp only [cacheWf, Bool.and_eq_true, List.all_eq_true, beq_iff_eq] at h
    exact (h.2 _ (cacheFind_mem hf)).2

/-- After a lookup the key is there. -/
theorem cacheFind_cacheLookup_same (cache : List (CrcParams × CrcTable)) (p : CrcParams) :
    cacheFind (cacheLookup cache p).2 p = some (cacheLookup cache p).1 := by
  unfold cacheLookup
  cases hf : cacheFind cache p with
  | none => exact cacheFind_cacheInsert_same _ hf
  | some t => exact hf

/-- A lookup loses no key. -/
theorem cacheFind_cacheLookup_some {cache : List (CrcParams × CrcTable)} (p : CrcParams) {q : CrcParams} {t : CrcTable}
    (h : cacheFind cache q = some t) : cacheFind (cacheLookup cache p).2 q = some t := by
  unfold cacheLookup
  cases hf : cacheFind cache p with
  | none =>
    have hqp : q ≠ p := by
      rintro rfl
      rw [hf] at h
      cases h
    rw [cacheFind_cacheInsert_ne _ _ hqp, h]
  | some u => exact h

/-- Every cache operation keeps a correct cache in canonical form (10_state R29, log entry 11). -/
theorem cacheWf_cacheLookup {cache : List (CrcParams × CrcTable)} {p : CrcParams} (hc : cacheWf cache = true)
    (hp : crcParamsWf p = true) : cacheWf (cacheLookup cache p).2 = true := by
  unfold cacheLookup
  cases hf : cacheFind cache p with
  | some t => exact hc
  | none =>
    simp only [cacheWf, Bool.and_eq_true, List.all_eq_true, beq_iff_eq] at hc ⊢
    refine ⟨keysRise_cacheInsert _ hc.1 hf, fun e he => ?_⟩
    rcases mem_cacheInsert.mp he with rfl | he
    · exact ⟨hp, rfl⟩
    · exact hc.2 e he

/-- Two new keys may be inserted in either order: the cache has one canonical form (log entry 11). -/
theorem cacheInsert_comm (cache : List (CrcParams × CrcTable)) {p q : CrcParams} (t u : CrcTable) (h : p ≠ q) :
    cacheInsert (cacheInsert cache p t) q u = cacheInsert (cacheInsert cache q u) p t := by
  have hk : cacheKey p ≠ cacheKey q := fun e => h (cacheKey_injective e)
  induction cache with
  | nil => simp only [cacheInsert]; split_ifs <;> first | rfl | omega
  | cons e rest ih =>
    obtain ⟨k, w⟩ := e
    simp only [cacheInsert]
    split_ifs <;> simp only [cacheInsert] <;> split_ifs <;> first | rfl | omega | rw [ih]

/-- Two lookups leave the same cache in either order. -/
theorem cacheLookup_comm (cache : List (CrcParams × CrcTable)) (p q : CrcParams) :
    (cacheLookup (cacheLookup cache p).2 q).2 = (cacheLookup (cacheLookup cache q).2 p).2 := by
  by_cases hpq : p = q
  · rw [hpq]
  · cases hp : cacheFind cache p <;> cases hq : cacheFind cache q <;>
      simp [cacheLookup, hp, hq, cacheFind_cacheInsert_ne _ _ hpq, cacheFind_cacheInsert_ne _ _ (Ne.symm hpq),
        cacheInsert_comm _ _ _ hpq]

/-! ### The parameter checks -/

/-- A parameter record that passes the checks is well formed and holds the operands (43_crc R185). -/
theorem crcParamsOf_ok {order : Byte} {refl : Bool} {poly init xorout : Word64} {p : CrcParams}
    (h : crcParamsOf order refl poly init xorout = .ok p) :
    crcParamsWf p = true ∧ crcOrderOf order = some p.order ∧ p.poly = poly ∧ p.init = init ∧ p.xorout = xorout ∧
      p.reflect = refl := by
  unfold crcParamsOf at h
  split at h
  · cases h
  · next o ho =>
    split at h
    · next hv =>
      cases h
      exact ⟨by simp [crcParamsWf, fitsOrder, hv.1, hv.2.1, hv.2.2], ho, rfl, rfl, rfl, rfl⟩
    · cases h

theorem crcOrderOf_orderBits {order : Byte} {o : CrcOrder} : crcOrderOf order = some o ↔ orderBits o = order.toNat := by
  constructor
  · intro h
    unfold crcOrderOf at h
    split at h <;> cases h <;> (rename_i he; exact he.symm)
  · intro h
    unfold crcOrderOf
    rw [← h]
    cases o <;> rfl

/-! ### The shift register -/

/-- The value has at most `n` bits. -/
abbrev FitsBits (n : Nat) (x : Word64) : Prop := ∀ j, n ≤ j → x.getLsbD j = false

theorem fitsBits_iff {n : Nat} {x : Word64} : FitsBits n x ↔ x.toNat < 2 ^ n := by
  constructor
  · intro h
    refine Nat.lt_pow_two_of_testBit _ fun i hi => ?_
    rw [BitVec.testBit_toNat]
    exact h i hi
  · intro h j hj
    rw [← BitVec.testBit_toNat]
    exact Nat.testBit_lt_two_pow (Nat.lt_of_lt_of_le h (Nat.pow_le_pow_right (by decide) hj))

theorem crcShift_xor (n : Nat) (poly a b : Word64) : crcShift n poly (a ^^^ b) = crcShift n poly a ^^^ crcShift n poly b := by
  have hs : (a ^^^ b) <<< 1 &&& mask n = (a <<< 1 &&& mask n) ^^^ (b <<< 1 &&& mask n) := by
    ext i hi
    by_cases h : i < 1 <;> simp [h, Bool.and_xor_distrib_right]
  unfold crcShift
  rw [BitVec.getLsbD_xor, hs]
  apply BitVec.eq_of_getLsbD_eq
  intro i _
  cases a.getLsbD (n - 1) <;> cases b.getLsbD (n - 1) <;> simp <;> grind

theorem crcShifts_xor (n : Nat) (poly : Word64) (k : Nat) (a b : Word64) :
    crcShifts n poly k (a ^^^ b) = crcShifts n poly k a ^^^ crcShifts n poly k b := by
  induction k generalizing a b with
  | zero => rfl
  | succ k ih => simp only [crcShifts, crcShift_xor, ih]

theorem crcShift_fits {n : Nat} (hn : n ≤ 64) {poly : Word64} (hp : FitsBits n poly) (x : Word64) :
    FitsBits n (crcShift n poly x) := by
  intro j hj
  unfold crcShift
  split <;> simp [getLsbD_mask hn, Nat.not_lt.mpr hj, hp j hj]

theorem crcShifts_fits {n : Nat} (hn : n ≤ 64) {poly : Word64} (hp : FitsBits n poly) (k : Nat) (x : Word64)
    (hk : 0 < k) : FitsBits n (crcShifts n poly k x) := by
  induction k generalizing x with
  | zero => exact absurd hk (by decide)
  | succ k ih =>
    rcases Nat.eq_zero_or_pos k with rfl | hk
    · exact crcShift_fits hn hp x
    · exact ih _ hk

/-- Bits that do not reach the top are only shifted. -/
theorem crcShifts_low {n : Nat} (hn : n ≤ 64) (poly : Word64) (k : Nat) (x : Word64) (hk : k ≤ n)
    (hx : FitsBits (n - k) x) : crcShifts n poly k x = x <<< k := by
  induction k generalizing x with
  | zero => simp [crcShifts]
  | succ k ih =>
    have h1 : crcShift n poly x = x <<< 1 := by
      unfold crcShift
      rw [hx (n - 1) (by omega)]
      apply BitVec.eq_of_getLsbD_eq
      intro i hi
      by_cases hin : i < n
      · simp [getLsbD_mask hn, hin]
      · simp [getLsbD_mask hn, hin, hx (i - 1) (by omega)]
    rw [crcShifts, h1, ih _ (by omega)]
    · rw [← BitVec.shiftLeft_add, Nat.add_comm]
    · intro j hj
      by_cases h0 : j < 1
      · simp [h0]
      · simp [hx (j - 1) (by omega)]

theorem genTable_getD (p : CrcParams) {v : Nat} (h : v < 256) : (genTable p).getD v 0 = tableEntry p v := by
  simp [genTable, List.getD_eq_getElem?_getD, h]

/-- Bit reversal commutes with XOR. -/
theorem reflect_xor {n : Nat} (hn : n ≤ 64) (a b : Word64) : reflect n (a ^^^ b) = reflect n a ^^^ reflect n b := by
  apply BitVec.eq_of_getLsbD_eq
  intro i _
  by_cases h : i < n <;> simp [getLsbD_reflect hn, h]

theorem reflect_fits {n : Nat} (hn : n ≤ 64) (v : Word64) : FitsBits n (reflect n v) := by
  intro j hj
  simp [getLsbD_reflect hn, Nat.not_lt.mpr hj]

theorem and_mask_of_fits {n : Nat} (hn : n ≤ 64) {x : Word64} (hx : FitsBits n x) : x &&& mask n = x := by
  apply BitVec.eq_of_getLsbD_eq
  intro i _
  by_cases h : i < n
  · simp [getLsbD_mask hn, h]
  · simp [hx i (Nat.not_lt.mp h)]

theorem reflect_reflect {n : Nat} (hn : n ≤ 64) {x : Word64} (hx : FitsBits n x) : reflect n (reflect n x) = x := by
  apply BitVec.eq_of_getLsbD_eq
  intro i _
  by_cases h : i < n
  · simp [getLsbD_reflect hn, h, show n - 1 - i < n by omega, show n - 1 - (n - 1 - i) = i by omega]
  · simp [getLsbD_reflect hn, h, hx i (Nat.not_lt.mp h)]

/-- A table entry has at most `order` bits. -/
theorem tableEntry_fits (p : CrcParams) (v : Nat) : FitsBits (orderBits p.order) (tableEntry p v) := by
  intro j hj
  simp [tableEntry, getLsbD_mask (orderBits_bounds p.order).2.1, Nat.not_lt.mpr hj]

/-- The register keeps its `order` bits (10_state R27; 43_crc R188). -/
theorem crcByte_fits {c : CrcInst} (ht : c.table = genTable c.params) {reg : Word64}
    (hr : FitsBits (orderBits c.params.order) reg) (b : Byte) : FitsBits (orderBits c.params.order) (crcByte c reg b) := by
  have hn := (orderBits_bounds c.params.order).2.1
  have hv : ∀ x : Word64, (x &&& 0xFF).toNat < 256 := by
    intro x
    rw [BitVec.toNat_and]
    exact Nat.lt_succ_of_le Nat.and_le_right
  intro j hj
  unfold crcByte
  dsimp only
  rw [ht]
  split
  · rw [genTable_getD _ (hv _), BitVec.getLsbD_xor, BitVec.getLsbD_ushiftRight, hr _ (by omega), tableEntry_fits _ _ j hj]
    rfl
  · rw [genTable_getD _ (hv _), BitVec.getLsbD_xor, BitVec.getLsbD_and, getLsbD_mask hn, tableEntry_fits _ _ j hj]
    simp [Nat.not_lt.mpr hj]

end Sys2Proof.Machine
end

