-- ==== Sys2Proof/Laws/Decode.lean ====
section
/-! SUPPORT. Laws of the decoder's parts: the header's fields, the 64-bit operands and the data each come back, and taking
bytes splits the stream. -/

namespace Sys2Proof

open Machine

theorem nibble_high : ∀ b c : Nibble, (b ++ c).extractLsb' 4 4 = b := by decide +kernel

theorem nibble_low : ∀ b c : Nibble, (b ++ c).extractLsb' 0 4 = c := by decide +kernel

/-- The last header byte is its two nibbles. -/
theorem nibbles_append : ∀ x : Byte, x.extractLsb' 4 4 ++ x.extractLsb' 0 4 = x := by decide +kernel

/-- The two nibbles of the last header byte come back (30_encoding R71). -/
theorem readHeader_fields (opc slot a : Byte) (b c : Nibble) :
    readHeader opc slot a (b ++ c) = { opc := opc, slot := slot, a := a, b := b, c := c } := by
  simp only [readHeader, nibble_high, nibble_low]

/-- Reading the header of header bytes (30_encoding R70, R71). -/
theorem decode_headerBytes (h : Header) (rest : List Byte) : decode (headerBytes h ++ rest) = decodeBody h rest := by
  simp only [headerBytes, decode, readHeader_fields, List.cons_append, List.nil_append]

theorem takeBytes_append (xs rest : List Byte) : takeBytes xs.length (xs ++ rest) = some (xs, rest) := by
  simp [takeBytes]

/-- Taking bytes succeeds exactly when they are there, and splits the stream. -/
theorem takeBytes_eq_some {n : Nat} {bs xs rest : List Byte} :
    takeBytes n bs = some (xs, rest) ↔ bs = xs ++ rest ∧ xs.length = n := by
  constructor
  · intro h
    unfold takeBytes at h
    split at h
    · cases h
      simp; omega
    · cases h
  · rintro ⟨rfl, rfl⟩
    exact takeBytes_append xs rest

theorem takeBytes_eq_none {n : Nat} {bs : List Byte} : takeBytes n bs = none ↔ bs.length < n := by
  simp [takeBytes]

/-- A 64-bit operand comes back from its bytes (30_encoding R72). -/
theorem take64_beBytes (x : Word64) (rest : List Byte) : take64 (beBytes x ++ rest) = some (x, rest) := by
  have h : takeBytes 8 (beBytes x ++ rest) = some (beBytes x, rest) := takeBytes_append (beBytes x) rest
  simp [take64, h, ofNat_beNat_beBytes]

theorem take64_eq_some {bs rest : List Byte} {x : Word64} (h : take64 bs = some (x, rest)) : bs = beBytes x ++ rest := by
  unfold take64 at h
  cases hb : takeBytes 8 bs with
  | none => simp [hb] at h
  | some tr =>
    obtain ⟨xs, r⟩ := tr
    obtain ⟨rfl, hl⟩ := takeBytes_eq_some.mp hb
    simp only [hb, Option.map_some, Option.some.injEq, Prod.mk.injEq] at h
    obtain ⟨rfl, rfl⟩ := h
    rw [beBytes_ofNat_beNat (by decide) xs hl]

theorem take64_eq_none {bs : List Byte} : take64 bs = none ↔ bs.length < 8 := by simp [take64, takeBytes_eq_none]

/-- LEN and DATA come back when the data fits (30_encoding R72, R80). -/
theorem takeData_dataBytes (data rest : List Byte) (h : dataFits data = true) :
    takeData (dataBytes data ++ rest) = some (data, rest) := by
  have hl : data.length < 256 ^ 4 := by
    have := of_decide_eq_true h
    simp only [Config.maxUpdateLen] at this
    omega
  have h4 : takeBytes 4 (beBytesOf 4 data.length ++ (data ++ rest)) = some (beBytesOf 4 data.length, data ++ rest) := by
    simpa using takeBytes_append (beBytesOf 4 data.length) (data ++ rest)
  simp only [takeData, dataBytes, List.append_assoc, h4, Option.bind_some, beNat_beBytesOf, Nat.mod_eq_of_lt hl]
  exact takeBytes_append data rest

theorem takeData_eq_some {bs rest data : List Byte} (h : takeData bs = some (data, rest)) :
    bs = dataBytes data ++ rest ∧ dataFits data = true := by
  unfold takeData at h
  cases hb : takeBytes 4 bs with
  | none => simp [hb] at h
  | some tr =>
    obtain ⟨len, r⟩ := tr
    obtain ⟨rfl, hl⟩ := takeBytes_eq_some.mp hb
    simp only [hb, Option.bind_some] at h
    obtain ⟨rfl, hd⟩ := takeBytes_eq_some.mp h
    have hlt := beNat_lt len
    have hlen : beBytesOf 4 data.length = len := by rw [hd, ← hl, beBytesOf_beNat]
    refine ⟨by simp [dataBytes, hlen], ?_⟩
    rw [hl] at hlt
    exact decide_eq_true (by simp only [Config.maxUpdateLen]; omega)

@[simp] theorem headerBytes_length (h : Header) : (headerBytes h).length = 4 := rfl
@[simp] theorem constructBytes_length (s a : Byte) (b c : Nibble) : (constructBytes s a b c).length = 4 := rfl
@[simp] theorem plainBytes_length (o s : Byte) : (plainBytes o s).length = 4 := rfl
@[simp] theorem dataBytes_length (data : List Byte) : (dataBytes data).length = 4 + data.length := by
  simp [dataBytes]

/-- Bytes the decoder does not wait on begin with a header. -/
theorem decode_eq_decodeBody {bs : List Byte} (h : decode bs ≠ .incomplete) :
    ∃ hd rest, bs = headerBytes hd ++ rest ∧ decode bs = decodeBody hd rest := by
  unfold decode at h
  split at h
  · next b0 b1 b2 b3 rest =>
    exact ⟨readHeader b0 b1 b2 b3, rest, by simp [headerBytes, readHeader, nibbles_append], rfl⟩
  · exact absurd rfl h

/-- `decodePlain` accepts exactly the headers whose reserved fields are 0. -/
theorem decodePlain_command {h : Header} {i j : Instr} {r rest : List Byte} (hd : decodePlain h i r = .command j rest) :
    i = j ∧ r = rest ∧ h.a = 0 ∧ h.b = 0 ∧ h.c = 0 := by
  unfold decodePlain at hd
  split at hd
  · next hp =>
    cases hd
    simpa [plainFields] using hp
  · cases hd

/-- A byte is the one its number names. -/
theorem byte_eq_of_toNat {n : Nat} {x : Byte} (h : x.toNat = n) : x = BitVec.ofNat 8 n := by
  apply BitVec.eq_of_toNat_eq
  rw [← h]
  simp

end Sys2Proof
end

