-- ==== Sys2Proof/Laws/Engine.lean ====
section
/-! SUPPORT. Laws of the block loop and of UPDATE on a hash instance: `hashUpdate` in one equation, and that pieces compose
(41_engine R122 to R125). -/

namespace Sys2Proof.Machine

theorem blockSize_cases (a : Alg) : blockSize a = 64 ∨ blockSize a = 128 := by
  cases a <;> simp [blockSize, descriptor]

theorem blockSize_pos (a : Alg) : 0 < blockSize a := by rcases blockSize_cases a with h | h <;> omega

/-- A block of every algorithm is a whole number of 32-bit and of 64-bit words, so assembly never refuses it
(40_conversion R101, R102). -/
theorem block_words (a : Alg) {block : List Byte} (h : block.length = blockSize a) :
    block.length % (32 / 8) = 0 ∧ block.length % (64 / 8) = 0 := by
  rcases blockSize_cases a with e | e <;> omega

/-- Each block that `compressBlocks` takes out of `k` whole blocks is a whole block. -/
theorem block_whole (a : Alg) {k j : Nat} {data : List Byte} (h : k * blockSize a ≤ data.length) (hj : j < k) :
    ((data.drop (j * blockSize a)).take (blockSize a)).length = blockSize a := by
  have := Nat.mul_le_mul_right (blockSize a) (show j + 1 ≤ k from hj)
  rw [Nat.succ_mul] at this
  simp; omega

/-- No open parameter enters the block size (42_padding R151). -/
@[simp] theorem descriptor_blockSize (p : Params) (a : Alg) : (descriptor p a).blockSize = blockSize a := by
  cases a <;> rfl

/-- Nor the digest length. -/
@[simp] theorem descriptor_digestBits (p : Params) (a : Alg) :
    (descriptor p a).digestBits = (descriptor Params.spec a).digestBits := by
  cases a <;> rfl

/-- The block loop splits anywhere. -/
theorem compressBlocks_add (a : Alg) (m n : Nat) (acc : Acc) (data : List Byte) :
    compressBlocks a (m + n) acc data = compressBlocks a n (compressBlocks a m acc data) (data.drop (m * blockSize a)) := by
  induction m generalizing acc data with
  | zero => simp [compressBlocks]
  | succ m ih =>
    rw [Nat.add_right_comm, compressBlocks, ih, compressBlocks, List.drop_drop]
    rw [show blockSize a + m * blockSize a = (m + 1) * blockSize a by rw [Nat.succ_mul, Nat.add_comm]]

/-- The block loop reads only the bytes of its blocks. -/
theorem compressBlocks_append (a : Alg) (k : Nat) (acc : Acc) (x y : List Byte) (h : k * blockSize a ≤ x.length) :
    compressBlocks a k acc (x ++ y) = compressBlocks a k acc x := by
  induction k generalizing acc x with
  | zero => rfl
  | succ k ih =>
    rw [Nat.succ_mul] at h
    have hx : blockSize a ≤ x.length := by omega
    rw [compressBlocks, compressBlocks, List.take_append_of_le_length hx, List.drop_append_of_le_length hx, ih]
    simp; omega

/-- UPDATE in one equation: the whole blocks of the buffered bytes and DATA are compressed and counted, the rest is
buffered (41_engine R122 to R124). -/
theorem hashUpdate_eq (i : HashInst) (data : List Byte) (h : buffered i < blockSize i.desc) :
    hashUpdate i data =
      { i with
        acc := compressBlocks i.desc ((buffered i + data.length) / blockSize i.desc) i.acc (i.buf ++ data)
        count := i.count + blockSize i.desc * ((buffered i + data.length) / blockSize i.desc)
        buf := (i.buf ++ data).drop (blockSize i.desc * ((buffered i + data.length) / blockSize i.desc)) } := by
  have hpos := blockSize_pos i.desc
  unfold hashUpdate topOff
  dsimp only
  by_cases hlt : buffered i + data.length < blockSize i.desc
  · simp [hlt, Nat.div_eq_of_lt hlt, compressBlocks]
  · simp only [hlt, if_false]
    by_cases hb : 0 < buffered i
    · have hfill : blockSize i.desc - buffered i ≤ data.length := by omega
      have hk : (buffered i + data.length) / blockSize i.desc =
          (data.length - (blockSize i.desc - buffered i)) / blockSize i.desc + 1 := by
        rw [show buffered i + data.length = data.length - (blockSize i.desc - buffered i) + blockSize i.desc by omega,
          Nat.add_div_right _ hpos]
      have htake : (i.buf ++ data).take (blockSize i.desc) = i.buf ++ data.take (blockSize i.desc - buffered i) := by
        rw [List.take_append, List.take_of_length_le (Nat.le_of_lt h)]
        rfl
      have hdrop : (i.buf ++ data).drop (blockSize i.desc) = data.drop (blockSize i.desc - buffered i) := by
        rw [List.drop_append, List.drop_eq_nil_of_le (Nat.le_of_lt h)]
        rfl
      simp only [hb, if_true, hashBlocks, List.length_drop, hk, compressBlocks, htake, hdrop]
      simp only [Nat.mul_comm (blockSize i.desc), Nat.succ_mul, HashInst.mk.injEq, true_and, and_true]
      refine ⟨?_, by omega⟩
      rw [Nat.add_comm _ (blockSize i.desc), ← List.drop_drop, hdrop]
    · have hnil : i.buf = [] := List.length_eq_zero_iff.mp (Nat.eq_zero_of_not_pos hb)
      have h0 : buffered i = 0 := Nat.eq_zero_of_not_pos hb
      simp [h0, hnil, hashBlocks, Nat.mul_comm]

@[simp] theorem hashUpdate_desc (i : HashInst) (data : List Byte) : (hashUpdate i data).desc = i.desc := by
  unfold hashUpdate topOff
  dsimp only
  split
  · next h => split at h <;> (try split at h) <;> cases h; rfl
  · next h => split at h <;> (try split at h) <;> cases h <;> rfl

@[simp] theorem hashUpdate_phase (i : HashInst) (data : List Byte) : (hashUpdate i data).phase = i.phase := by
  unfold hashUpdate topOff
  dsimp only
  split
  · next h => split at h <;> (try split at h) <;> cases h; rfl
  · next h => split at h <;> (try split at h) <;> cases h <;> rfl

section
variable (i : HashInst) (data : List Byte)

/-- What UPDATE leaves buffered is less than a block (10_state R25). -/
theorem buffered_hashUpdate (h : buffered i < blockSize i.desc) :
    buffered (hashUpdate i data) = (buffered i + data.length) % blockSize i.desc := by
  have hd := Nat.div_add_mod (buffered i + data.length) (blockSize i.desc)
  simp only [hashUpdate_eq i data h, buffered, List.length_drop, List.length_append] at *
  omega

theorem buffered_hashUpdate_lt (h : buffered i < blockSize i.desc) :
    buffered (hashUpdate i data) < blockSize i.desc := by
  rw [buffered_hashUpdate i data h]
  exact Nat.mod_lt _ (blockSize_pos _)

/-- UPDATE of no bytes changes nothing (41_engine R130). -/
theorem hashUpdate_nil (h : buffered i < blockSize i.desc) : hashUpdate i [] = i := by
  rw [hashUpdate_eq i [] h]
  simp [Nat.div_eq_of_lt h, compressBlocks]

/-- Two pieces do what their concatenation does (41_engine R125). -/
theorem hashUpdate_append (more : List Byte) (h : buffered i < blockSize i.desc) :
    hashUpdate (hashUpdate i data) more = hashUpdate i (data ++ more) := by
  have h1 := buffered_hashUpdate i data h
  have h2 := buffered_hashUpdate_lt i data h
  have hbs := blockSize_pos i.desc
  have hk : (buffered i + (data ++ more).length) / blockSize i.desc =
      (buffered i + data.length) / blockSize i.desc +
        ((buffered i + data.length) % blockSize i.desc + more.length) / blockSize i.desc := by
    have hd := Nat.div_add_mod (buffered i + data.length) (blockSize i.desc)
    rw [List.length_append, ← Nat.add_assoc]
    conv_lhs => rw [← hd, Nat.add_assoc, Nat.add_comm, Nat.add_mul_div_left _ _ hbs, Nat.add_comm]
  have hle : blockSize i.desc * ((buffered i + data.length) / blockSize i.desc) ≤ (i.buf ++ data).length := by
    rw [List.length_append]
    exact Nat.mul_div_le _ _
  rw [hashUpdate_eq (hashUpdate i data) more (by simpa using h2), h1, hashUpdate_desc,
    hashUpdate_eq i (data ++ more) h, hk, compressBlocks_add, Nat.mul_add, hashUpdate_eq i data h]
  simp only [← List.append_assoc, ← List.drop_drop]
  rw [compressBlocks_append i.desc ((buffered i + data.length) / blockSize i.desc) i.acc (i.buf ++ data) more
    (by rw [Nat.mul_comm]; exact hle), Nat.mul_comm _ (blockSize i.desc),
    List.drop_append_of_le_length hle, Nat.add_assoc]

end

/-- The length of the tail and of the final blocks: a whole number of blocks (42_padding R155). -/
theorem padTail_length (p : Params) (a : Alg) (t : List Byte) (count : Nat) :
    (padTail p a t count).length = t.length + 1 +
      padZeros (blockSize a) t.length ((descriptor p a).trailer.length + (descriptor p a).lenBytes) +
        ((descriptor p a).trailer.length + (descriptor p a).lenBytes) := by
  have hl : ∀ d n, (lenField d n).length = d.lenBytes := by
    intro d n
    unfold lenField
    cases d.lenOrder <;> simp
  simp only [padTail, List.length_append, List.length_replicate, List.length_cons, List.length_nil, hl,
    descriptor_blockSize]
  omega

end Sys2Proof.Machine
end

