-- ==== Sys2Proof/Laws/State.lean ====
section
/-! SUPPORT. One lemma per field per update of the state, so that no proof unfolds a record update. -/

namespace Sys2Proof.Machine

section setSlot
variable (s : State) (k : Nat) (v : Slot)

@[simp] theorem State.setSlot_slots : (s.setSlot k v).slots = s.slots.set k v := rfl
@[simp] theorem State.setSlot_cache : (s.setSlot k v).cache = s.cache := rfl
@[simp] theorem State.setSlot_fault : (s.setSlot k v).fault = s.fault := rfl
@[simp] theorem State.setSlot_ncmd : (s.setSlot k v).ncmd = s.ncmd := rfl
@[simp] theorem State.setSlot_commands : (s.setSlot k v).commands = s.commands := rfl
@[simp] theorem State.setSlot_responses : (s.setSlot k v).responses = s.responses := rfl
@[simp] theorem State.setSlot_params : (s.setSlot k v).params = s.params := rfl
@[simp] theorem State.setSlot_nSlots : (s.setSlot k v).nSlots = s.nSlots := by simp [State.nSlots]

/-- Reading the slot just written. -/
@[simp] theorem State.setSlot_slotAt_same (h : k < s.nSlots) : (s.setSlot k v).slotAt k = v := by
  have h' : k < s.slots.length := h
  simp [State.slotAt, List.getD_eq_getElem?_getD, h']

/-- Writing one slot leaves every other alone. -/
@[simp] theorem State.setSlot_slotAt_ne {j : Nat} (h : j ≠ k) : (s.setSlot k v).slotAt j = s.slotAt j := by
  simp [State.slotAt, List.getD_eq_getElem?_getD, List.getElem?_set_ne (Ne.symm h)]

end setSlot

section respond
variable (s : State) (bytes : List Byte)

@[simp] theorem State.respond_slots : (s.respond bytes).slots = s.slots := rfl
@[simp] theorem State.respond_cache : (s.respond bytes).cache = s.cache := rfl
@[simp] theorem State.respond_fault : (s.respond bytes).fault = s.fault := rfl
@[simp] theorem State.respond_ncmd : (s.respond bytes).ncmd = s.ncmd := rfl
@[simp] theorem State.respond_commands : (s.respond bytes).commands = s.commands := rfl
@[simp] theorem State.respond_responses : (s.respond bytes).responses = s.responses ++ bytes := rfl
@[simp] theorem State.respond_params : (s.respond bytes).params = s.params := rfl
@[simp] theorem State.respond_nSlots : (s.respond bytes).nSlots = s.nSlots := rfl
@[simp] theorem State.respond_slotAt (j : Nat) : (s.respond bytes).slotAt j = s.slotAt j := rfl

end respond

section advance
variable (s : State)

@[simp] theorem State.advance_slots : s.advance.slots = s.slots := rfl
@[simp] theorem State.advance_cache : s.advance.cache = s.cache := rfl
@[simp] theorem State.advance_fault : s.advance.fault = s.fault := rfl
@[simp] theorem State.advance_ncmd : s.advance.ncmd = s.ncmd + 1 := rfl
@[simp] theorem State.advance_commands : s.advance.commands = s.commands := rfl
@[simp] theorem State.advance_responses : s.advance.responses = s.responses := rfl
@[simp] theorem State.advance_params : s.advance.params = s.params := rfl
@[simp] theorem State.advance_nSlots : s.advance.nSlots = s.nSlots := rfl
@[simp] theorem State.advance_slotAt (j : Nat) : s.advance.slotAt j = s.slotAt j := rfl

end advance

section faulted
variable (s : State) (e : ErrorCode) (slot : Byte)

@[simp] theorem State.faulted_slots : (s.faulted e slot).slots = s.slots := rfl
@[simp] theorem State.faulted_cache : (s.faulted e slot).cache = s.cache := rfl
@[simp] theorem State.faulted_fault :
    (s.faulted e slot).fault = some { code := e, slot := slot, atNcmd := s.ncmd } := rfl
@[simp] theorem State.faulted_ncmd : (s.faulted e slot).ncmd = s.ncmd := rfl
@[simp] theorem State.faulted_commands : (s.faulted e slot).commands = s.commands := rfl
@[simp] theorem State.faulted_responses : (s.faulted e slot).responses = s.responses ++ [errorByte e] := rfl
@[simp] theorem State.faulted_params : (s.faulted e slot).params = s.params := rfl
@[simp] theorem State.faulted_nSlots : (s.faulted e slot).nSlots = s.nSlots := rfl
@[simp] theorem State.faulted_slotAt (j : Nat) : (s.faulted e slot).slotAt j = s.slotAt j := rfl

end faulted

/-- A slot in range is one of the slots. -/
theorem State.slotAt_mem (s : State) {k : Nat} (h : k < s.nSlots) : s.slotAt k ∈ s.slots := by
  have h' : k < s.slots.length := h
  simp [State.slotAt, List.getD_eq_getElem?_getD, h']

/-- A slot number out of range reads as the empty slot, and no command uses it. -/
theorem State.slotAt_of_le (s : State) {k : Nat} (h : s.nSlots ≤ k) : s.slotAt k = .empty := by
  have h' : s.slots.length ≤ k := h
  simp [State.slotAt, List.getD_eq_getElem?_getD, h']

/-- No error code has the byte of a completed command (30_encoding R84). -/
theorem errorByte_ne_zero (e : ErrorCode) : errorByte e ≠ 0x00 := by cases e <;> decide

end Sys2Proof.Machine
end

