-- ==== Sys2Proof/Laws/Ops.lean ====
section
/-! SUPPORT. What each shared operation answers, one lemma a case, so that no proof about a command unfolds it. -/

namespace Sys2Proof.Machine

variable {s : State} {slot : Byte}

/-- In the fault state a command has no effect (60_exceptions R404). -/
theorem onSlot_halted {r : FaultRecord} (rule : Slot → StepOutcome) (h : s.fault = some r) :
    onSlot s slot rule = .fault (.halted r) := by
  simp [onSlot, h]

/-- A slot number in range runs the rule on the slot's contents. -/
theorem onSlot_ready (rule : Slot → StepOutcome) (hf : s.fault = none) (h : slotIndex slot < s.nSlots) :
    onSlot s slot rule = rule (s.slotAt (slotIndex slot)) := by
  simp [onSlot, hf, h]

/-- A slot number out of range raises BAD_SLOT. -/
theorem onSlot_bad (rule : Slot → StepOutcome) (hf : s.fault = none) (h : s.nSlots ≤ slotIndex slot) :
    onSlot s slot rule = raise s .badSlot slot := by
  simp [onSlot, hf, Nat.not_lt.mpr h]

/-- Everything `onSlot` can answer. -/
theorem onSlot_cases (s : State) (slot : Byte) (rule : Slot → StepOutcome) :
    (∃ r, s.fault = some r ∧ onSlot s slot rule = .fault (.halted r)) ∨
    (s.fault = none ∧ s.nSlots ≤ slotIndex slot ∧ onSlot s slot rule = raise s .badSlot slot) ∨
    (s.fault = none ∧ slotIndex slot < s.nSlots ∧ onSlot s slot rule = rule (s.slotAt (slotIndex slot))) := by
  cases hf : s.fault with
  | some r => exact .inl ⟨r, rfl, onSlot_halted rule hf⟩
  | none =>
    rcases Nat.lt_or_ge (slotIndex slot) s.nSlots with h | h
    · exact .inr (.inr ⟨rfl, h, onSlot_ready rule hf h⟩)
    · exact .inr (.inl ⟨rfl, h, onSlot_bad rule hf h⟩)

/-- A construction on an empty slot runs its own checks. -/
theorem onEmptySlot_empty (rule : StepOutcome) (hf : s.fault = none) (h : slotIndex slot < s.nSlots)
    (he : s.slotAt (slotIndex slot) = .empty) : onEmptySlot s slot rule = rule := by
  simp [onEmptySlot, onSlot_ready _ hf h, he]

/-- A construction on an occupied slot raises SLOT_BUSY. -/
theorem onEmptySlot_busy (rule : StepOutcome) (hf : s.fault = none) (h : slotIndex slot < s.nSlots)
    (he : s.slotAt (slotIndex slot) ≠ .empty) : onEmptySlot s slot rule = raise s .slotBusy slot := by
  cases hv : s.slotAt (slotIndex slot) with
  | empty => exact absurd hv he
  | hash i => simp [onEmptySlot, onSlot_ready _ hf h, hv]
  | crc c => simp [onEmptySlot, onSlot_ready _ hf h, hv]

/-- A command on an empty slot that needs an engine raises SLOT_EMPTY. -/
theorem onBoundSlot_empty (onHash : HashInst → StepOutcome) (onCrc : CrcInst → StepOutcome) (hf : s.fault = none)
    (h : slotIndex slot < s.nSlots) (he : s.slotAt (slotIndex slot) = .empty) :
    onBoundSlot s slot onHash onCrc = raise s .slotEmpty slot := by
  simp [onBoundSlot, onSlot_ready _ hf h, he]

/-- A command on a hash slot runs its rule for hash slots. -/
theorem onBoundSlot_hash {i : HashInst} (onHash : HashInst → StepOutcome) (onCrc : CrcInst → StepOutcome)
    (hf : s.fault = none) (h : slotIndex slot < s.nSlots) (hi : s.slotAt (slotIndex slot) = .hash i) :
    onBoundSlot s slot onHash onCrc = onHash i := by
  simp [onBoundSlot, onSlot_ready _ hf h, hi]

/-- A command on a CRC slot runs its rule for CRC slots. -/
theorem onBoundSlot_crc {c : CrcInst} (onHash : HashInst → StepOutcome) (onCrc : CrcInst → StepOutcome)
    (hf : s.fault = none) (h : slotIndex slot < s.nSlots) (hc : s.slotAt (slotIndex slot) = .crc c) :
    onBoundSlot s slot onHash onCrc = onCrc c := by
  simp [onBoundSlot, onSlot_ready _ hf h, hc]

/-- A command that binds a slot in range: each value the statements speak of, in one place. -/
theorem finishWith_next (s : State) (v : Slot) (payload : List Byte) (h : slotIndex slot < s.nSlots) :
    ∃ t, finishWith s slot v payload = .next t ∧ t.slotAt (slotIndex slot) = v ∧
      (∀ j, j ≠ slotIndex slot → t.slotAt j = s.slotAt j) ∧ t.nSlots = s.nSlots ∧ t.cache = s.cache ∧
      t.fault = s.fault ∧ t.ncmd = s.ncmd + 1 ∧ t.commands = s.commands ∧
      t.responses = s.responses ++ 0x00 :: payload ∧ t.params = s.params :=
  ⟨_, rfl, by simp [h], fun j hj => by simp [hj], by simp⟩

end Sys2Proof.Machine
end

