-- ==== Sys2Proof/Laws/Exec.lean ====
section
/-! SUPPORT. What a command can do, said once: `effect` is the outcome of a command as a function of the contents of the slot
it names, the cache and the open parameters, and `exec_cases` is every answer of `exec`. -/

namespace Sys2Proof.Machine

/-- What a completing command leaves: the slot's contents, the response payload and the cache. -/
abbrev Effect := Slot × List Byte × List (CrcParams × CrcTable)

/-- CONSTRUCT as a function of the slot's contents (41_engine R120). -/
def constructEffect (cache : List (CrcParams × CrcTable)) (desc : Except ErrorCode Alg) (v : Slot) :
    Except ErrorCode Effect :=
  match v, desc with
  | .empty, .ok a => .ok (.hash (hashInit a), [], cache)
  | .empty, .error e => .error e
  | _, _ => .error .slotBusy

/-- A command as a function of what it may read (20_memory R64). -/
def effect (p : Params) (cache : List (CrcParams × CrcTable)) (i : Instr) (v : Slot) : Except ErrorCode Effect :=
  match i with
  | .constructMd5 _ b c => constructEffect cache (plainDesc .md5 b c) v
  | .constructSha1 _ b c => constructEffect cache (plainDesc .sha1 b c) v
  | .constructSha256 _ b c => constructEffect cache (plainDesc .sha256 b c) v
  | .constructSha384 _ b c => constructEffect cache (plainDesc .sha384 b c) v
  | .constructSha512 _ b c => constructEffect cache (plainDesc .sha512 b c) v
  | .constructRipemd128 _ b c => constructEffect cache (plainDesc .ripemd128 b c) v
  | .constructRipemd160 _ b c => constructEffect cache (plainDesc .ripemd160 b c) v
  | .constructRipemd256 _ b c => constructEffect cache (plainDesc .ripemd256 b c) v
  | .constructWhirlpool _ b c => constructEffect cache (plainDesc .whirlpool b c) v
  | .constructTiger _ b c => constructEffect cache (plainDesc .tiger b c) v
  | .constructHaval _ b c => constructEffect cache (havalDesc b c) v
  | .crcConstruct _ order reflect poly init xorout =>
    match v, crcParamsOf order reflect poly init xorout with
    | .empty, .ok q => .ok (.crc (crcInit p q (cacheLookup cache q).1), [], (cacheLookup cache q).2)
    | .empty, .error e => .error e
    | _, _ => .error .slotBusy
  | .reset _ =>
    match v with
    | .empty => .error .slotEmpty
    | .hash i => .ok (.hash (hashInit i.desc), [], cache)
    | .crc c => .ok (.crc (crcReset p c), [], cache)
  | .update _ data =>
    match v with
    | .empty => .error .slotEmpty
    | .hash i =>
      match i.phase with
      | .finalized => .error .usageUpdateAfterFinalize
      | .active => .ok (.hash (hashUpdate i data), [], cache)
    | .crc c =>
      match c.phase with
      | .finalized => .error .usageUpdateAfterFinalize
      | .active => .ok (.crc (crcUpdate c data), [], cache)
  | .finalize _ =>
    match v with
    | .empty => .error .slotEmpty
    | .hash i =>
      match i.phase with
      | .finalized => .error .usageFinalizeTwice
      | .active => .ok (.hash (hashFinalized p i), hashDigest p i, cache)
    | .crc c =>
      match c.phase with
      | .finalized => .error .usageFinalizeTwice
      | .active => .ok (.crc (crcFinalized c), crcResult c, cache)
  | .compute _ data =>
    match v with
    | .empty => .error .slotEmpty
    | .hash i =>
      .ok (.hash (hashFinalized p (hashUpdate (hashInit i.desc) data)), hashDigest p (hashUpdate (hashInit i.desc) data),
        cache)
    | .crc c =>
      .ok (.crc (crcFinalized (crcUpdate (crcReset p c) data)), crcResult (crcUpdate (crcReset p c) data), cache)
  | .status _ => .ok (v, beBytes (statusWord v), cache)
  | .destroy _ =>
    match v with
    | .empty => .error .slotEmpty
    | .hash _ => .ok (.empty, [], cache)
    | .crc _ => .ok (.empty, [], cache)

/-- The state a completing command leaves (41_engine R131). -/
def State.done (s : State) (slot : Byte) (r : Effect) : State :=
  ((({ s with cache := r.2.2 } : State).setSlot (slotIndex slot) r.1).respond (0x00 :: r.2.1)).advance

/-- The answer of a command on a slot in range. -/
def answer (s : State) (slot : Byte) (r : Except ErrorCode Effect) : StepOutcome :=
  match r with
  | .error e => .next (s.faulted e slot)
  | .ok r => .next (s.done slot r)

section done
variable (s : State) (slot : Byte) (r : Effect)

@[simp] theorem State.done_fault : (s.done slot r).fault = s.fault := rfl
@[simp] theorem State.done_cache : (s.done slot r).cache = r.2.2 := rfl
@[simp] theorem State.done_ncmd : (s.done slot r).ncmd = s.ncmd + 1 := rfl
@[simp] theorem State.done_commands : (s.done slot r).commands = s.commands := rfl
@[simp] theorem State.done_responses : (s.done slot r).responses = s.responses ++ 0x00 :: r.2.1 := rfl
@[simp] theorem State.done_params : (s.done slot r).params = s.params := rfl
@[simp] theorem State.done_slots : (s.done slot r).slots = s.slots.set (slotIndex slot) r.1 := rfl
@[simp] theorem State.done_nSlots : (s.done slot r).nSlots = s.nSlots := State.setSlot_nSlots _ _ _

theorem State.done_slotAt_same (h : slotIndex slot < s.nSlots) : (s.done slot r).slotAt (slotIndex slot) = r.1 :=
  State.setSlot_slotAt_same { s with cache := r.2.2 } _ _ h

theorem State.done_slotAt_ne {j : Nat} (h : j ≠ slotIndex slot) : (s.done slot r).slotAt j = s.slotAt j :=
  State.setSlot_slotAt_ne { s with cache := r.2.2 } _ _ h

end done

/-- Writing a slot's own contents back changes nothing. -/
theorem State.setSlot_slotAt_self (s : State) {k : Nat} (h : k < s.nSlots) : s.setSlot k (s.slotAt k) = s := by
  have h' : k < s.slots.length := h
  simp [State.setSlot, State.slotAt, List.getD_eq_getElem?_getD, h']

theorem constructWith_eq {s : State} {slot : Byte} (desc : Except ErrorCode Alg) (hf : s.fault = none)
    (h : slotIndex slot < s.nSlots) :
    constructWith s slot desc = answer s slot (constructEffect s.cache desc (s.slotAt (slotIndex slot))) := by
  unfold constructWith
  cases hv : s.slotAt (slotIndex slot) with
  | empty => rw [onEmptySlot_empty _ hf h hv]; cases desc <;> rfl
  | hash i => rw [onEmptySlot_busy _ hf h (by simp [hv])]; rfl
  | crc c => rw [onEmptySlot_busy _ hf h (by simp [hv])]; rfl

/-- `exec` on a slot in range, in one equation. -/
theorem exec_ready {s : State} (i : Instr) (hf : s.fault = none) (h : slotIndex i.slot < s.nSlots) :
    exec i s = answer s i.slot (effect s.params s.cache i (s.slotAt (slotIndex i.slot))) := by
  cases i with
  | crcConstruct slot order reflect poly init xorout =>
    simp only [Instr.slot] at h ⊢
    simp only [exec, execCrcConstruct, effect]
    cases hv : s.slotAt (slotIndex slot) with
    | empty => rw [onEmptySlot_empty _ hf h hv]; cases crcParamsOf order reflect poly init xorout <;> rfl
    | hash i => rw [onEmptySlot_busy _ hf h (by simp [hv])]; rfl
    | crc c => rw [onEmptySlot_busy _ hf h (by simp [hv])]; rfl
  | status slot =>
    simp only [Instr.slot] at h ⊢
    simp only [exec, execStatus, effect, onSlot_ready _ hf h, answer, State.done]
    rw [State.setSlot_slotAt_self _ h]
    rfl
  | reset slot =>
    simp only [Instr.slot] at h ⊢
    simp only [exec, execReset, effect]
    cases hv : s.slotAt (slotIndex slot) with
    | empty => rw [onBoundSlot_empty _ _ hf h hv]; rfl
    | hash i => rw [onBoundSlot_hash _ _ hf h hv]; rfl
    | crc c => rw [onBoundSlot_crc _ _ hf h hv]; rfl
  | update slot data =>
    simp only [Instr.slot] at h ⊢
    simp only [exec, execUpdate, effect]
    cases hv : s.slotAt (slotIndex slot) with
    | empty => rw [onBoundSlot_empty _ _ hf h hv]; rfl
    | hash i => rw [onBoundSlot_hash _ _ hf h hv]; dsimp only; cases i.phase <;> rfl
    | crc c => rw [onBoundSlot_crc _ _ hf h hv]; dsimp only; cases c.phase <;> rfl
  | finalize slot =>
    simp only [Instr.slot] at h ⊢
    simp only [exec, execFinalize, effect]
    cases hv : s.slotAt (slotIndex slot) with
    | empty => rw [onBoundSlot_empty _ _ hf h hv]; rfl
    | hash i => rw [onBoundSlot_hash _ _ hf h hv]; dsimp only; cases i.phase <;> rfl
    | crc c => rw [onBoundSlot_crc _ _ hf h hv]; dsimp only; cases c.phase <;> rfl
  | compute slot data =>
    simp only [Instr.slot] at h ⊢
    simp only [exec, execCompute, effect]
    cases hv : s.slotAt (slotIndex slot) with
    | empty => rw [onBoundSlot_empty _ _ hf h hv]; rfl
    | hash i => rw [onBoundSlot_hash _ _ hf h hv]; rfl
    | crc c => rw [onBoundSlot_crc _ _ hf h hv]; rfl
  | destroy slot =>
    simp only [Instr.slot] at h ⊢
    simp only [exec, execDestroy, effect]
    cases hv : s.slotAt (slotIndex slot) with
    | empty => rw [onBoundSlot_empty _ _ hf h hv]; rfl
    | hash i => rw [onBoundSlot_hash _ _ hf h hv]; rfl
    | crc c => rw [onBoundSlot_crc _ _ hf h hv]; rfl
  | _ => exact constructWith_eq _ hf h

/-- Every command begins with the checks of `onSlot`. -/
theorem exec_onSlot (i : Instr) (s : State) : ∃ rule, exec i s = onSlot s i.slot rule := by
  cases i <;>
    simp only [exec, execConstructMd5, execConstructSha1, execConstructSha256, execConstructSha384, execConstructSha512,
      execConstructRipemd128, execConstructRipemd160, execConstructRipemd256, execConstructWhirlpool,
      execConstructTiger, execConstructHaval, execCrcConstruct, execReset, execUpdate, execFinalize, execCompute,
      execStatus, execDestroy, constructWith, onEmptySlot, onBoundSlot, Instr.slot] <;>
    exact ⟨_, rfl⟩

/-- `exec` in the fault state. -/
theorem exec_halted {s : State} (i : Instr) {r : FaultRecord} (hf : s.fault = some r) :
    exec i s = .fault (.halted r) := by
  obtain ⟨rule, h⟩ := exec_onSlot i s
  rw [h, onSlot_halted rule hf]

/-- `exec` on a slot number out of range. -/
theorem exec_bad {s : State} (i : Instr) (hf : s.fault = none) (h : s.nSlots ≤ slotIndex i.slot) :
    exec i s = raise s .badSlot i.slot := by
  obtain ⟨rule, he⟩ := exec_onSlot i s
  rw [he, onSlot_bad rule hf h]

/-- Everything `exec` can answer. -/
theorem exec_cases (i : Instr) (s : State) :
    (∃ r, s.fault = some r ∧ exec i s = .fault (.halted r)) ∨
    (s.fault = none ∧ ∃ e, exec i s = .next (s.faulted e i.slot)) ∨
    (s.fault = none ∧ slotIndex i.slot < s.nSlots ∧ ∃ r, effect s.params s.cache i (s.slotAt (slotIndex i.slot)) = .ok r ∧
      exec i s = .next (s.done i.slot r)) := by
  cases hf : s.fault with
  | some r => exact .inl ⟨r, rfl, exec_halted i hf⟩
  | none =>
    rcases Nat.lt_or_ge (slotIndex i.slot) s.nSlots with h | h
    · have he := exec_ready i hf h
      cases hr : effect s.params s.cache i (s.slotAt (slotIndex i.slot)) with
      | error e => exact .inr (.inl ⟨rfl, e, by rw [he, hr]; rfl⟩)
      | ok r => exact .inr (.inr ⟨rfl, h, r, rfl, by rw [he, hr]; rfl⟩)
    · exact .inr (.inl ⟨rfl, .badSlot, exec_bad i hf h⟩)

/-- A command that leaves no fault completed: its effect, and the state it left. -/
theorem exec_completed {i : Instr} {s t : State} (h : exec i s = .next t) (ht : t.fault = none) :
    s.fault = none ∧ slotIndex i.slot < s.nSlots ∧
      ∃ r, effect s.params s.cache i (s.slotAt (slotIndex i.slot)) = .ok r ∧ t = s.done i.slot r := by
  rcases exec_cases i s with ⟨r, -, he⟩ | ⟨-, e, he⟩ | ⟨hf, hk, r, hr, he⟩ <;> rw [he] at h <;> cases h
  · simp at ht
  · exact ⟨hf, hk, r, hr, rfl⟩

/-- Only CRC_CONSTRUCT touches the cache (10_state R29). -/
theorem effect_cache {p : Params} {cache : List (CrcParams × CrcTable)} {i : Instr} {v : Slot} {r : Effect}
    (h : effect p cache i v = .ok r) :
    r.2.2 = cache ∨ ∃ slot order refl poly init xorout q, i = .crcConstruct slot order refl poly init xorout ∧
      crcParamsOf order refl poly init xorout = .ok q ∧ v = .empty ∧ r.2.2 = (cacheLookup cache q).2 ∧
      r.1 = .crc (crcInit p q (cacheLookup cache q).1) ∧ r.2.1 = [] := by
  cases i with
  | crcConstruct slot order refl poly init xorout =>
    simp only [effect] at h
    split at h <;> cases h
    next q hq => exact .inr ⟨_, _, _, _, _, _, q, rfl, hq, rfl, rfl, rfl, rfl⟩
  | _ =>
    simp only [effect, constructEffect] at h
    try split at h
    all_goals first
      | (cases h; done)
      | (cases h; exact .inl rfl)
      | (split at h <;> cases h; exact .inl rfl)

/-- The cache a completing command leaves (43_crc R184, R186). -/
def cacheAfter (i : Instr) (cache : List (CrcParams × CrcTable)) : List (CrcParams × CrcTable) :=
  match i with
  | .crcConstruct _ order refl poly init xorout =>
    match crcParamsOf order refl poly init xorout with
    | .ok q => (cacheLookup cache q).2
    | .error _ => cache
  | _ => cache

theorem cacheWf_cacheAfter {cache : List (CrcParams × CrcTable)} (i : Instr) (h : cacheWf cache = true) :
    cacheWf (cacheAfter i cache) = true := by
  cases i with
  | crcConstruct slot order refl poly init xorout =>
    cases hq : crcParamsOf order refl poly init xorout with
    | error e => simp only [cacheAfter, hq, h]
    | ok q => simpa only [cacheAfter, hq] using cacheWf_cacheLookup h (crcParamsOf_ok hq).1
  | _ => exact h

theorem cacheAfter_comm (i j : Instr) (cache : List (CrcParams × CrcTable)) :
    cacheAfter i (cacheAfter j cache) = cacheAfter j (cacheAfter i cache) := by
  cases i with
  | crcConstruct slot order refl poly init xorout =>
    cases j with
    | crcConstruct slot' order' refl' poly' init' xorout' =>
      simp only [cacheAfter]
      cases crcParamsOf order refl poly init xorout <;> cases crcParamsOf order' refl' poly' init' xorout' <;>
        first | rfl | exact cacheLookup_comm ..
    | _ => rfl
  | _ => rfl

theorem effect_cacheAfter {p : Params} {cache : List (CrcParams × CrcTable)} {i : Instr} {v : Slot} {r : Effect}
    (h : effect p cache i v = .ok r) : r.2.2 = cacheAfter i cache := by
  cases i with
  | crcConstruct slot order refl poly init xorout =>
    simp only [effect] at h
    split at h <;> cases h
    next q hq => simp only [cacheAfter, hq]
  | _ =>
    simp only [effect, constructEffect] at h
    (try split at h) <;> (try split at h) <;> cases h <;> rfl

/-- Which correct cache the device holds makes no difference to the slot and the response (10_state R30). -/
theorem effect_other_cache {p : Params} {c1 c2 : List (CrcParams × CrcTable)} {i : Instr} {v : Slot} {r : Effect}
    (h1 : cacheWf c1 = true) (h2 : cacheWf c2 = true) (h : effect p c1 i v = .ok r) :
    effect p c2 i v = .ok (r.1, r.2.1, cacheAfter i c2) := by
  cases i with
  | crcConstruct slot order refl poly init xorout =>
    simp only [effect] at h ⊢
    split at h <;> cases h
    next q hq => simp only [cacheAfter, hq, cacheLookup_fst q h1, cacheLookup_fst q h2]
  | _ =>
    simp only [effect, constructEffect, cacheAfter] at h ⊢
    (try split at h) <;> (try split at h) <;> cases h <;> simp_all

/-- Nor to the error a command raises. -/
theorem effect_error_other_cache {p : Params} {c1 c2 : List (CrcParams × CrcTable)} {i : Instr} {v : Slot}
    {e : ErrorCode} (h : effect p c1 i v = .error e) : effect p c2 i v = .error e := by
  cases i <;> simp only [effect, constructEffect] at h ⊢ <;> (try split at h) <;> (try split at h) <;> cases h <;>
    simp_all

end Sys2Proof.Machine
end

