-- ==== Sys2Proof/Laws/Flags.lean ====
section
/-! SUPPORT. Each field of the STATUS word reads back where 10_state R34 puts it. -/

namespace Sys2Proof.Machine

section packStatus
variable (cl : Word32) (bf : Byte) (lc ps : Nibble) (al : Byte) (ic f k : BitVec 1)

/-- The word with its width spelled as the sum of its fields' widths. -/
theorem packStatus_extract (i l : Nat) :
    (packStatus cl bf lc ps al ic f k).extractLsb' i l =
      BitVec.extractLsb' (n := 32 + 8 + 4 + 4 + 8 + 5 + 1 + 1 + 1) i l
        (cl ++ bf ++ lc ++ ps ++ al ++ (0 : BitVec 5) ++ ic ++ f ++ k) := rfl

theorem packStatus_constructed : (packStatus cl bf lc ps al ic f k).extractLsb' 0 1 = k := by
  rw [packStatus_extract]; simp [BitVec.extractLsb'_append_eq_of_add_le, -Nat.reduceAdd]

theorem packStatus_finalized : (packStatus cl bf lc ps al ic f k).extractLsb' 1 1 = f := by
  rw [packStatus_extract]
  simp [BitVec.extractLsb'_append_eq_of_le, BitVec.extractLsb'_append_eq_of_add_le, -Nat.reduceAdd]

theorem packStatus_isCrc : (packStatus cl bf lc ps al ic f k).extractLsb' 2 1 = ic := by
  rw [packStatus_extract]
  simp [BitVec.extractLsb'_append_eq_of_le, BitVec.extractLsb'_append_eq_of_add_le, -Nat.reduceAdd]

theorem packStatus_reserved : (packStatus cl bf lc ps al ic f k).extractLsb' 3 5 = 0 := by
  rw [packStatus_extract]
  simp [BitVec.extractLsb'_append_eq_of_le, BitVec.extractLsb'_append_eq_of_add_le, -Nat.reduceAdd]

theorem packStatus_algOrOrder : (packStatus cl bf lc ps al ic f k).extractLsb' 8 8 = al := by
  rw [packStatus_extract]
  simp [BitVec.extractLsb'_append_eq_of_le, BitVec.extractLsb'_append_eq_of_add_le, -Nat.reduceAdd]

theorem packStatus_passes : (packStatus cl bf lc ps al ic f k).extractLsb' 16 4 = ps := by
  rw [packStatus_extract]
  simp [BitVec.extractLsb'_append_eq_of_le, BitVec.extractLsb'_append_eq_of_add_le, -Nat.reduceAdd]

theorem packStatus_lenCode : (packStatus cl bf lc ps al ic f k).extractLsb' 20 4 = lc := by
  rw [packStatus_extract]
  simp [BitVec.extractLsb'_append_eq_of_le, BitVec.extractLsb'_append_eq_of_add_le, -Nat.reduceAdd]

theorem packStatus_buffered : (packStatus cl bf lc ps al ic f k).extractLsb' 24 8 = bf := by
  rw [packStatus_extract]
  simp [BitVec.extractLsb'_append_eq_of_le, BitVec.extractLsb'_append_eq_of_add_le, -Nat.reduceAdd]

theorem packStatus_countLo : (packStatus cl bf lc ps al ic f k).extractLsb' 32 32 = cl := by
  rw [packStatus_extract]
  simp [BitVec.extractLsb'_append_eq_of_le, -Nat.reduceAdd]

end packStatus

end Sys2Proof.Machine
end

