-- ==== Sys2Proof/Laws/PerInstr.lean ====
section
/-! SUPPORT. Per-instruction family EncodeLength: a command's encoding has the length 30_encoding R83 gives it. -/

namespace Sys2Proof.Laws

/-- The encoding of `i` has its length (30_encoding R83). -/
def EncodeLength.Statement (i : Instr) : Prop := (encode i).length = commandLength i

theorem EncodeLength.constructMd5 (slot : Byte) (b c : Nibble) : EncodeLength.Statement (.constructMd5 slot b c) := rfl

theorem EncodeLength.constructSha1 (slot : Byte) (b c : Nibble) : EncodeLength.Statement (.constructSha1 slot b c) := rfl

theorem EncodeLength.constructSha256 (slot : Byte) (b c : Nibble) : EncodeLength.Statement (.constructSha256 slot b c) := rfl

theorem EncodeLength.constructSha384 (slot : Byte) (b c : Nibble) : EncodeLength.Statement (.constructSha384 slot b c) := rfl

theorem EncodeLength.constructSha512 (slot : Byte) (b c : Nibble) : EncodeLength.Statement (.constructSha512 slot b c) := rfl

theorem EncodeLength.constructRipemd128 (slot : Byte) (b c : Nibble) : EncodeLength.Statement (.constructRipemd128 slot b c) := rfl

theorem EncodeLength.constructRipemd160 (slot : Byte) (b c : Nibble) : EncodeLength.Statement (.constructRipemd160 slot b c) := rfl

theorem EncodeLength.constructRipemd256 (slot : Byte) (b c : Nibble) : EncodeLength.Statement (.constructRipemd256 slot b c) := rfl

theorem EncodeLength.constructWhirlpool (slot : Byte) (b c : Nibble) : EncodeLength.Statement (.constructWhirlpool slot b c) := rfl

theorem EncodeLength.constructTiger (slot : Byte) (b c : Nibble) : EncodeLength.Statement (.constructTiger slot b c) := rfl

theorem EncodeLength.constructHaval (slot : Byte) (b c : Nibble) : EncodeLength.Statement (.constructHaval slot b c) := rfl

theorem EncodeLength.crcConstruct (slot order : Byte) (reflect : Bool) (poly init xorout : Word64) :
    EncodeLength.Statement (.crcConstruct slot order reflect poly init xorout) := by
  simp [EncodeLength.Statement, encode, commandLength]

theorem EncodeLength.reset (slot : Byte) : EncodeLength.Statement (.reset slot) := rfl

theorem EncodeLength.finalize (slot : Byte) : EncodeLength.Statement (.finalize slot) := rfl

theorem EncodeLength.status (slot : Byte) : EncodeLength.Statement (.status slot) := rfl

theorem EncodeLength.destroy (slot : Byte) : EncodeLength.Statement (.destroy slot) := rfl

theorem EncodeLength.update (slot : Byte) (data : List Byte) : EncodeLength.Statement (.update slot data) := by
  simp [EncodeLength.Statement, encode, commandLength]
  omega

theorem EncodeLength.compute (slot : Byte) (data : List Byte) : EncodeLength.Statement (.compute slot data) := by
  simp [EncodeLength.Statement, encode, commandLength]
  omega

end Sys2Proof.Laws
end

