-- ==== Sys2Proof/Laws/Safety.lean ====
section
/-! SUPPORT. Which pieces of the invariant the operations keep: Init, the CRC operations, fault entry, and the length of
what Output answers. -/

namespace Sys2Proof.Machine

/-- The invariant, piece by piece. -/
theorem inv_iff (s : State) :
    s.inv = true ↔ 1 ≤ s.nSlots ∧ s.nSlots ≤ 256 ∧ (∀ v ∈ s.slots, slotWf v = true) ∧
      (∀ v ∈ s.slots, slotCached s.cache v = true) ∧ cacheWf s.cache = true ∧ faultWf s = true := by
  simp [State.inv, and_assoc]

/-- Fault entry keeps the invariant, whatever was consumed (60_exceptions R404). -/
theorem inv_faulted {s : State} (rest : List Byte) (e : ErrorCode) (slot : Byte) (h : s.inv = true) :
    (({ s with commands := rest } : State).faulted e slot).inv = true := by
  rw [inv_iff] at *
  exact ⟨h.1, h.2.1, h.2.2.1, h.2.2.2.1, h.2.2.2.2.1, by simp [faultWf]⟩

theorem accShape_initialAcc (a : Alg) : accShape a (initialAcc a) = true := by cases a <;> rfl

/-- `Init(desc)` is well formed (41_engine R119). -/
theorem hashWf_hashInit (a : Alg) : hashWf (hashInit a) = true := by
  simp [hashWf, hashInit, buffered, blockSize_pos, accShape_initialAcc]

/-- The initial register has `order` bits (43_crc R187). -/
theorem initReg_fits (pr : Params) {p : CrcParams} (h : crcParamsWf p = true) : fitsOrder p.order (initReg pr p) = true := by
  simp only [crcParamsWf, Bool.and_eq_true] at h
  unfold initReg
  split
  · exact decide_eq_true (fitsBits_iff.mp (reflect_fits (orderBits_bounds _).2.1 _))
  · exact h.1.2

theorem crcWf_crcInit (pr : Params) {p : CrcParams} (h : crcParamsWf p = true) :
    crcWf (crcInit pr p (genTable p)) = true := by
  simp [crcWf, crcInit, h, initReg_fits]

theorem crcWf_crcReset (pr : Params) {c : CrcInst} (h : crcWf c = true) : crcWf (crcReset pr c) = true := by
  simp only [crcWf, Bool.and_eq_true] at h ⊢
  exact ⟨h.1, initReg_fits _ h.1.1⟩

theorem crcWf_crcUpdate {c : CrcInst} (data : List Byte) (h : crcWf c = true) : crcWf (crcUpdate c data) = true := by
  simp only [crcWf, Bool.and_eq_true, beq_iff_eq, fitsOrder, decide_eq_true_eq] at h ⊢
  refine ⟨h.1, fitsBits_iff.mp ?_⟩
  suffices hs : ∀ (data : List Byte) (reg : Word64), FitsBits (orderBits c.params.order) reg →
      FitsBits (orderBits c.params.order) (data.foldl (crcByte c) reg) from hs data _ (fitsBits_iff.mpr h.2)
  intro data
  induction data with
  | nil => exact fun _ hr => hr
  | cons b bs ih => exact fun reg hr => ih _ (crcByte_fits h.1.2 hr b)

/-- Output answers `digest_bits / 8` bytes of an accumulator of its shape (42_padding R159). -/
theorem output_length (p : Params) {a : Alg} {acc : Acc} (h : accShape a acc = true) :
    (output p a acc).length = (descriptor Params.spec a).digestBits / 8 := by
  cases acc with
  | w32 ws =>
    cases a <;> simp [accShape, descriptor] at h <;>
      simp [output, outputAcc, serialize, descriptor, List.length_flatMap, h]
    next passes hlen => cases hlen <;> simp [havalFold, accWords32, havalBits, h]
  | w64 ws =>
    cases a <;> simp [accShape, descriptor] at h <;>
      simp [output, outputAcc, serialize, descriptor, List.length_flatMap, h]

end Sys2Proof.Machine
end

