-- ==== Sys2Proof/Laws/Step.lean ====
section
/-! SUPPORT. Everything a step can answer, said once (30_encoding R81; 60_exceptions R404). -/

namespace Sys2Proof.Machine

/-- Bytes the decoder rejects raise an error, whatever the reason. -/
theorem rejectCommand_eq (why : Reject) (slot : Byte) {s : State} (hf : s.fault = none) :
    ∃ e, rejectCommand why slot s = .next (s.faulted e slot) := by
  cases why with
  | illegalOpcode => exact ⟨_, rfl⟩
  | reservedField => exact ⟨_, rfl⟩
  | unknownAlgorithm =>
    simp only [rejectCommand, constructUnknown, constructWith]
    rcases Nat.lt_or_ge (slotIndex slot) s.nSlots with hk | hk
    · by_cases he : s.slotAt (slotIndex slot) = .empty
      · exact ⟨_, onEmptySlot_empty _ hf hk he⟩
      · exact ⟨_, onEmptySlot_busy _ hf hk he⟩
    · exact ⟨_, onSlot_bad _ hf hk⟩

/-- A step halts, waits, raises an error on bytes that are no command, or runs a command. -/
theorem step_cases (s : State) :
    (∃ r, s.fault = some r ∧ step s = .fault (.halted r)) ∨
    (s.fault = none ∧ decode s.commands = .incomplete ∧ step s = .fault (waitingFault s.commands)) ∨
    (s.fault = none ∧ ∃ why slot rest e, decode s.commands = .rejected why slot rest ∧
      step s = .next (({ s with commands := rest } : State).faulted e slot)) ∨
    (s.fault = none ∧ ∃ i rest, decode s.commands = .command i rest ∧ step s = exec i { s with commands := rest }) := by
  rcases hf : s.fault with _ | r
  · refine .inr ?_
    cases hd : decode s.commands with
    | incomplete => exact .inl ⟨rfl, rfl, by simp [step, fetch, hf, hd]⟩
    | rejected why slot rest =>
      obtain ⟨e, he⟩ := rejectCommand_eq why slot (s := { s with commands := rest }) hf
      exact .inr (.inl ⟨rfl, why, slot, rest, e, rfl, by rw [hf] at he; simpa only [step, fetch, hf, hd] using he⟩)
    | command i rest => exact .inr (.inr ⟨rfl, i, rest, rfl, by simp only [step, fetch, hf, hd]⟩)
  · exact .inl ⟨r, rfl, by simp [step, fetch, hf]⟩

end Sys2Proof.Machine
end

