-- ==== Sys2Proof/Machine/TigerGen.lean ====
section
/-! DEFINITION. The procedure that generates the Tiger S-boxes (48_tiger R338). It is configuration: the core reads the
tables of R339 (log entry 16). -/

namespace Sys2Proof.Machine

/-- The ASCII text the procedure starts from, as bytes: "Tiger - A Fast New Hash Function, by Ross Anderson and Eli
Biham" (48_tiger R338). -/
def tigerGenText : List Byte :=
  "Tiger - A Fast New Hash Function, by Ross Anderson and Eli Biham".toList.map fun ch => BitVec.ofNat 8 ch.toNat

/-- The state of the procedure: the 1024 entries `F`, the `state` words and the column counter `abc`. -/
structure TigerGenState where
  f : List Word64
  state : List Word64
  abc : Nat
  deriving DecidableEq, Repr

/-- `F` split into four S-boxes of 256 entries. -/
def tigerGenBoxes (f : List Word64) : TigerBoxes :=
  { t1 := f.take 256, t2 := (f.drop 256).take 256, t3 := (f.drop 512).take 256, t4 := (f.drop 768).take 256 }

/-- A word with byte `col` replaced. -/
def setByteOf (x : Word64) (col : Nat) (b : Byte) : Word64 :=
  (x &&& ~~~((0xFF : Word64) <<< (8 * col))) ||| ((b.setWidth 64) <<< (8 * col))

/-- Swap byte `col` of two entries of `F`. -/
def tigerGenSwap (f : List Word64) (col i j : Nat) : List Word64 :=
  let x := f.getD i 0
  let y := f.getD j 0
  (f.set i (setByteOf x col (byteOf y col))).set j (setByteOf y col (byteOf x col))

/-- Entry `sb + i` of one round of the procedure. -/
def tigerGenStep (s : TigerGenState) (i sb : Nat) : TigerGenState :=
  let s1 : TigerGenState :=
    if s.abc + 1 = 3 then
      { s with abc := 0, state := tigerCore (tigerGenBoxes s.f) s.state (blockWords (leWords 64 tigerGenText)) }
    else { s with abc := s.abc + 1 }
  let word := s1.state.getD s1.abc 0
  { s1 with f := (List.range 8).foldl (fun f col => tigerGenSwap f col (sb + i) (sb + (byteOf word col).toNat)) s1.f }

/-- The procedure's initial state: every byte of entry `n` is `n mod 256`. -/
def tigerGenInit : TigerGenState :=
  { f := (List.range 1024).map fun n => BitVec.ofNat 64 (n % 256 * 0x0101010101010101), state := tigerIV, abc := 2 }

/-- The generated S-boxes (48_tiger R338). -/
def tigerGenerate : TigerBoxes :=
  tigerGenBoxes ((List.range 5).foldl (fun s _ =>
    (List.range 256).foldl (fun s i => [0, 256, 512, 768].foldl (fun s sb => tigerGenStep s i sb) s) s) tigerGenInit).f

end Sys2Proof.Machine
end

