-- ==== Sys2Proof/Tests/Slice0.lean ====
section
/-! SUPPORT. The model's own tests: the well-formedness smoke, one written-out encoding of every command, the spec's vectors
on one step or one digest, and for every statement with hypotheses a witness that meets them. Expected values are the
spec's (30_encoding R89; 95_test_vectors sections 2.1 to 2.8) or written out by hand from the rules cited. -/

namespace Sys2Proof.Tests

open Sys2Proof.Machine Sys2Proof.Claims

/-! ## Helpers -/

/-- Slot 0 holds `v`, slot 1 is empty. -/
def slot0 (v : Slot) : State := { State.reset with slots := [v, .empty] }

/-- The device after reset with these bytes on the command stream. -/
def sent (bytes : List Byte) : State := hostSend State.reset bytes

/-- The response bytes of a next state, and nothing for a stop. -/
def answerOf : StepOutcome → List Byte
  | .next t => t.responses
  | .fault _ => []
  | .refused _ => []

/-- The error a next state records. -/
def errorOf : StepOutcome → Option ErrorCode
  | .next t => t.fault.map FaultRecord.code
  | .fault _ => none
  | .refused _ => none

/-- The contents of slot 0 in a next state. -/
def slotOf : StepOutcome → Option Slot
  | .next t => some (t.slotAt 0)
  | .fault _ => none
  | .refused _ => none

/-- Why there is no next state. -/
def stopOf : StepOutcome → Option Fault
  | .next _ => none
  | .fault f => some f
  | .refused _ => none

/-- "abc" -/
def abc : List Byte := [0x61, 0x62, 0x63]

/-- MD5 after `n` zero bytes, `n` below a block. -/
def md5With (n : Nat) : HashInst := { hashInit .md5 with buf := List.replicate n 0 }

/-- The CRC-32 of the catalogue (43_crc R192). -/
def crc32 : CrcParams :=
  { order := .o32, poly := 0x04C11DB7, init := 0xFFFFFFFF, xorout := 0xFFFFFFFF, reflect := true }

/-- A CRC-32 instance right after construction. -/
def crc32Inst : CrcInst := crcInit Params.spec crc32 (genTable crc32)

/-- "123456789" -/
def digits : List Byte := [0x31, 0x32, 0x33, 0x34, 0x35, 0x36, 0x37, 0x38, 0x39]

/-- A fault record. -/
def aFault : FaultRecord := { code := .badSlot, slot := 7, atNcmd := 0 }

/-! ## Well-formedness: what the check refuses -/

/-- The check on UPDATE and COMPUTE with `n` bytes. -/
theorem wellFormed_replicate (n : Nat) :
    (Instr.update 0 (List.replicate n 0)).wellFormed = decide (n ≤ 2 ^ 32 - 1) ∧
    (Instr.compute 0xFF (List.replicate n 0)).wellFormed = decide (n ≤ 2 ^ 32 - 1) := by
  simp only [Instr.wellFormed, dataFits, List.length_replicate, Config.maxUpdateLen, and_self]

theorem test_update_too_long_is_ill_formed : (Instr.update 0 (List.replicate (2 ^ 32) 0)).wellFormed = false := by
  rw [(wellFormed_replicate _).1]
  decide

theorem test_compute_too_long_is_ill_formed : (Instr.compute 0xFF (List.replicate (2 ^ 32) 0)).wellFormed = false := by
  rw [(wellFormed_replicate _).2]
  decide

theorem test_longest_update_is_well_formed : (Instr.update 0 (List.replicate (2 ^ 32 - 1) 0)).wellFormed = true := by
  rw [(wellFormed_replicate _).1]
  decide

/-! ## Decoding, one written-out word for every constructor (30_encoding R71 to R80, R89) -/

theorem test_decode_constructMd5 : decode [0x01, 0x00, 0x01, 0x00] = .command (.constructMd5 0 0 0) [] := by decide

theorem test_decode_constructSha1 : decode [0x01, 0x05, 0x02, 0x00] = .command (.constructSha1 5 0 0) [] := by decide

theorem test_decode_constructSha256 :
    decode [0x01, 0x06, 0x03, 0x00] = .command (.constructSha256 6 0 0) [] := by decide

theorem test_decode_constructSha384 :
    decode [0x01, 0x07, 0x04, 0x00] = .command (.constructSha384 7 0 0) [] := by decide

theorem test_decode_constructSha512 :
    decode [0x01, 0x08, 0x05, 0x00] = .command (.constructSha512 8 0 0) [] := by decide

theorem test_decode_constructRipemd128 :
    decode [0x01, 0x09, 0x06, 0x00] = .command (.constructRipemd128 9 0 0) [] := by decide

theorem test_decode_constructRipemd160 :
    decode [0x01, 0x0A, 0x07, 0x00] = .command (.constructRipemd160 10 0 0) [] := by decide

theorem test_decode_constructRipemd256 :
    decode [0x01, 0x0B, 0x08, 0x00] = .command (.constructRipemd256 11 0 0) [] := by decide

theorem test_decode_constructWhirlpool :
    decode [0x01, 0xFF, 0x09, 0x00] = .command (.constructWhirlpool 255 0 0) [] := by decide

theorem test_decode_constructTiger :
    decode [0x01, 0x03, 0x0A, 0x00] = .command (.constructTiger 3 0 0) [] := by decide

theorem test_decode_constructHaval :
    decode [0x01, 0x01, 0x0B, 0x34] = .command (.constructHaval 1 3 4) [] := by decide

theorem test_decode_reset : decode [0x03, 0x02, 0x00, 0x00] = .command (.reset 2) [] := by decide

theorem test_decode_update :
    decode [0x04, 0x00, 0x00, 0x00, 0x00, 0x00, 0x00, 0x03, 0x61, 0x62, 0x63] = .command (.update 0 abc) [] := by decide

theorem test_decode_finalize : decode [0x05, 0x00, 0x00, 0x00] = .command (.finalize 0) [] := by decide

theorem test_decode_compute :
    decode [0x06, 0x04, 0x00, 0x00, 0x00, 0x00, 0x00, 0x01, 0x80] = .command (.compute 4 [0x80]) [] := by decide

theorem test_decode_status : decode [0x07, 0x03, 0x00, 0x00] = .command (.status 3) [] := by decide

theorem test_decode_destroy : decode [0x08, 0x01, 0x00, 0x00] = .command (.destroy 1) [] := by decide

theorem test_decode_crcConstruct :
    decode ([0x02, 0x00, 0x10, 0x00] ++ [0x00, 0x00, 0x00, 0x00, 0x00, 0x00, 0x10, 0x21] ++
      [0x00, 0x00, 0x00, 0x00, 0x00, 0x00, 0xFF, 0xFE] ++ [0x00, 0x00, 0x00, 0x00, 0x00, 0x00, 0x00, 0x01]) =
        .command (.crcConstruct 0 16 false 0x1021 0xFFFE 0x0001) [] := by decide

/-- The bytes after a command stay on the stream. -/
theorem test_decode_leaves_rest : decode [0x05, 0x00, 0x00, 0x00, 0x07] = .command (.finalize 0) [0x07] := by decide

/-- 95_test_vectors section 2.2: an UPDATE whose data has not all arrived has no verdict. -/
theorem test_decode_waits_for_data :
    decode [0x04, 0x00, 0x00, 0x00, 0x00, 0x00, 0x00, 0x0A, 0x61, 0x62, 0x63] = .incomplete := by decide

/-- The opcode table's numbering: header bits 31 to 0, then LEN (log entry 7). -/
theorem test_table_word_status : decodeTableWord 32 0x07030000 = some (.status 3) := by decide

theorem test_table_word_haval : decodeTableWord 32 0x01020B58 = some (.constructHaval 2 5 8) := by decide

theorem test_table_word_update : decodeTableWord 64 (0x04000000 + 2 * 2 ^ 32) = some (.update 0 [0, 0]) := by decide

/-! ## Errors of the first command after reset (95_test_vectors section 2.2) -/

theorem test_error_opcode_00 :
    errorOf (step (sent [0x00, 0x00, 0x00, 0x00])) = some .illegalCommand ∧ answerOf (step (sent [0x00, 0x00, 0x00, 0x00])) = [0x01] := by
  decide

theorem test_error_opcode_09 :
    errorOf (step (sent [0x09, 0x00, 0x00, 0x00])) = some .illegalCommand ∧ answerOf (step (sent [0x09, 0x00, 0x00, 0x00])) = [0x01] := by
  decide

theorem test_error_status_c1 :
    errorOf (step (sent [0x07, 0x00, 0x00, 0x01])) = some .illegalCommand ∧ answerOf (step (sent [0x07, 0x00, 0x00, 0x01])) = [0x01] := by
  decide

theorem test_error_finalize_a1 :
    errorOf (step (sent [0x05, 0x00, 0x01, 0x00])) = some .illegalCommand ∧ answerOf (step (sent [0x05, 0x00, 0x01, 0x00])) = [0x01] := by
  decide

theorem test_error_status_slot4 :
    errorOf (step (sent [0x07, 0x04, 0x00, 0x00])) = some .badSlot ∧ answerOf (step (sent [0x07, 0x04, 0x00, 0x00])) = [0x02] := by
  decide

theorem test_error_reset_empty :
    errorOf (step (sent [0x03, 0x00, 0x00, 0x00])) = some .slotEmpty ∧ answerOf (step (sent [0x03, 0x00, 0x00, 0x00])) = [0x03] := by
  decide

theorem test_error_construct_alg_0c :
    errorOf (step (sent [0x01, 0x00, 0x0C, 0x00])) = some .configAlg ∧ answerOf (step (sent [0x01, 0x00, 0x0C, 0x00])) = [0x10] := by
  decide

theorem test_error_md5_b1 :
    errorOf (step (sent [0x01, 0x00, 0x01, 0x10])) = some .configParam ∧ answerOf (step (sent [0x01, 0x00, 0x01, 0x10])) = [0x12] := by
  decide

theorem test_error_haval_2_passes :
    errorOf (step (sent [0x01, 0x00, 0x0B, 0x28])) = some .configHaval ∧ answerOf (step (sent [0x01, 0x00, 0x0B, 0x28])) = [0x11] := by
  decide

theorem test_error_haval_code_9 :
    errorOf (step (sent [0x01, 0x00, 0x0B, 0x59])) = some .configHaval ∧ answerOf (step (sent [0x01, 0x00, 0x0B, 0x59])) = [0x11] := by
  decide

theorem test_error_crc_order_12 :
    errorOf (step (sent ([0x02, 0x00, 0x0C, 0x00] ++ List.replicate 24 0))) = some .configCrcOrder := by decide

theorem test_error_crc_poly_107 :
    errorOf (step (sent ([0x02, 0x00, 0x08, 0x00, 0x00, 0x00, 0x00, 0x00, 0x00, 0x00, 0x01, 0x07] ++
      List.replicate 16 0))) = some .configCrcValue := by decide

theorem test_error_crc_order_8_c3 :
    errorOf (step (sent ([0x02, 0x00, 0x08, 0x03] ++ List.replicate 24 0))) = some .illegalCommand := by decide

/-- 20_memory R57: seven bytes of an UPDATE starve the engine, and no byte leaves it waiting. -/
theorem test_starved : stopOf (step (sent [0x04, 0x00, 0x00, 0x00, 0x00, 0x00, 0x00])) = some .starved := by decide

theorem test_waiting : stopOf (step State.reset) = some .waiting := by decide

theorem test_halted : stopOf (step { sent [0x07, 0x00, 0x00, 0x00] with fault := some aFault }) = some (.halted aFault) := by
  decide

/-- A fault record saves the code, the SLOT field and `ncmd` (60_exceptions R404). -/
theorem test_fault_record :
    (match step { sent [0x05, 0x02, 0x00, 0x00] with ncmd := 6 } with
      | .next t => t.fault
      | _ => none) = some { code := .slotEmpty, slot := 2, atNcmd := 6 } := by decide

/-! ## The commands, one step each -/

/-- 10_state R34: an empty slot answers 8 zero bytes. -/
theorem test_status_empty : answerOf (step (sent [0x07, 0x03, 0x00, 0x00])) = List.replicate 9 0 := by decide

/-- 95_test_vectors section 2.7: a SHA-512 slot after 300 bytes (COUNT_LO 256, BUFFERED 44). -/
theorem test_status_sha512 :
    answerOf (exec (.status 0) (slot0 (.hash { hashInit .sha512 with count := 256, buf := List.replicate 44 0x61 }))) =
      [0x00, 0x00, 0x00, 0x01, 0x00, 0x2C, 0x00, 0x05, 0x01] := by decide

/-- 95_test_vectors section 2.7: a HAVAL 5, 256 slot after 130 bytes, and HAVAL 3, 160 right after construction. -/
theorem test_statusWord_haval :
    beBytes (statusWord (.hash { hashInit (.haval .five .b256) with count := 128, buf := [0x61, 0x61] })) =
      [0x00, 0x00, 0x00, 0x80, 0x02, 0x85, 0x0B, 0x01] ∧
    beBytes (statusWord (.hash (hashInit (.haval .three .b160)))) = [0x00, 0x00, 0x00, 0x00, 0x00, 0x53, 0x0B, 0x01] := by
  decide

/-- 95_test_vectors section 2.7: a CRC-32 slot, and a finalized CRC-16 slot. -/
theorem test_statusWord_crc :
    beBytes (statusWord (.crc { params := crc32, table := [], reg := 5, phase := .active })) =
      [0x00, 0x00, 0x00, 0x00, 0x00, 0x10, 0x20, 0x05] ∧
    beBytes (statusWord (.crc { params := { order := .o16, poly := 0x1021, init := 0xFFFF, xorout := 0, reflect := false },
                                table := [], reg := 5, phase := .finalized })) =
      [0x00, 0x00, 0x00, 0x00, 0x00, 0x00, 0x10, 0x07] := by decide

/-- 41_engine R120: CONSTRUCT binds the slot of its SLOT field. -/
theorem test_construct_md5 : slotOf (step (sent [0x01, 0x00, 0x01, 0x00])) = some (.hash (hashInit .md5)) := by decide

/-- 41_engine R121: RESET of a finalized instance. -/
theorem test_reset_hash :
    slotOf (exec (.reset 0) (slot0 (.hash { md5With 10 with phase := .finalized, count := 64 }))) =
      some (.hash (hashInit .md5)) := by decide

/-- 43_crc R187: RESET of a CRC slot reloads `init` and keeps the table. -/
theorem test_reset_crc :
    slotOf (exec (.reset 0) (slot0 (.crc { params := crc32, table := [7], reg := 5, phase := .finalized }))) =
      some (.crc { params := crc32, table := [7], reg := 0xFFFFFFFF, phase := .active }) := by decide

/-- 95_test_vectors section 2.3, step 1: 10 bytes are buffered. -/
theorem test_update_buffers :
    slotOf (exec (.update 0 (List.replicate 10 0)) (slot0 (.hash (hashInit .md5)))) = some (.hash (md5With 10)) := by decide

/-- 95_test_vectors section 2.3, step 3: 54 more bytes complete one block. -/
theorem test_update_completes_block :
    (match slotOf (exec (.update 0 (List.replicate 54 0)) (slot0 (.hash (md5With 10)))) with
      | some (.hash i) => (buffered i, i.count)
      | _ => (99, 99)) = (0, 64) := by decide +kernel

/-- 95_test_vectors section 1, S1: FINALIZE of a fresh MD5 instance. -/
theorem test_finalize_md5_empty :
    answerOf (exec (.finalize 0) (slot0 (.hash (hashInit .md5)))) =
      [0x00, 0xD4, 0x1D, 0x8C, 0xD9, 0x8F, 0x00, 0xB2, 0x04, 0xE9, 0x80, 0x09, 0x98, 0xEC, 0xF8, 0x42, 0x7E] := by
  decide +kernel

/-- 95_test_vectors section 2.8: COMPUTE succeeds on a finalized slot. -/
theorem test_compute_md5_abc :
    answerOf (exec (.compute 0 abc) (slot0 (.hash { hashInit .md5 with phase := .finalized }))) =
      [0x00, 0x90, 0x01, 0x50, 0x98, 0x3C, 0xD2, 0x4F, 0xB0, 0xD6, 0x96, 0x3F, 0x7D, 0x28, 0xE1, 0x7F, 0x72] := by
  decide +kernel

/-- 95_test_vectors section 1, S2: the CRC-32 of "123456789". -/
theorem test_compute_crc32 :
    answerOf (exec (.compute 0 digits) (slot0 (.crc crc32Inst))) = [0x00, 0xCB, 0xF4, 0x39, 0x26] := by decide +kernel

/-- 95_test_vectors section 2.5: table entries of CRC-32 and of CRC-8. -/
theorem test_crc_table :
    [0x00, 0x01, 0x80, 0xFF].map (tableEntry crc32) = [0, 0x77073096, 0xEDB88320, 0x2D02EF8D] ∧
    [0x01, 0x80, 0xFF].map (tableEntry { order := .o8, poly := 0x07, init := 0, xorout := 0, reflect := false }) =
      [0x07, 0x89, 0xF3] := by decide +kernel

/-- 43_crc R192: CRC-64/ECMA-182, with masks of the whole word. -/
theorem test_crc64 :
    let p : CrcParams := { order := .o64, poly := 0x42F0E1EBA9EA3693, init := 0, xorout := 0, reflect := false }
    crcResult (crcUpdate (crcInit Params.spec p (genTable p)) digits) =
      [0x6C, 0x40, 0xDF, 0x5F, 0x0B, 0x49, 0x73, 0x47] := by decide +kernel

/-- 41_engine R129: DESTROY empties the slot. -/
theorem test_destroy : slotOf (exec (.destroy 0) (slot0 (.hash (hashInit .tiger)))) = some .empty := by decide

/-! ## The conversion layer (95_test_vectors section 2.1) -/

/-- 40_conversion R101, R102: an empty sequence gives no word, and a partial word is refused. -/
theorem test_partial_word_refused :
    leWords 32 [] = some [] ∧ leWords 32 [1, 2, 3] = none ∧ beWords 32 [1, 2, 3, 4, 5] = none := by decide

theorem test_conversion :
    leWords 32 [1, 2, 3, 4] = some [0x04030201] ∧ beWords 32 [1, 2, 3, 4] = some [0x01020304] ∧
    leWords 16 [1, 2] = some [0x0201] ∧
    leBytes (0x12345678 : Word32) = [0x78, 0x56, 0x34, 0x12] ∧ beBytes (0x12345678 : Word32) = [0x12, 0x34, 0x56, 0x78] := by
  decide

theorem test_rotation :
    rotl (0x80000001 : Word32) 1 = 3 ∧ rotl (0x80000001 : Word32) 32 = 0x80000001 ∧ rotl (0x80000001 : Word32) 33 = 3 ∧
    rotl (0x0123456789ABCDEF : Word64) 4 = 0x123456789ABCDEF0 ∧ rotr (0x00000003 : Word32) 1 = 0x80000001 ∧
    rotr (0x12345678 : Word32) 36 = 0x81234567 := by decide

theorem test_reflect :
    reflect 8 0x01 = 0x80 ∧ reflect 32 0x04C11DB7 = 0xEDB88320 ∧ reflect 16 0x1021 = 0x8408 ∧
    reflect 64 0x42F0E1EBA9EA3693 = 0xC96C5795D7870F42 := by decide +kernel

/-! ## The digest of "abc" of every algorithm (95_test_vectors section 2.6) -/

theorem test_digest_sha1 : hashDigest Params.spec { hashInit .sha1 with buf := abc } =
    [0xA9, 0x99, 0x3E, 0x36, 0x47, 0x06, 0x81, 0x6A, 0xBA, 0x3E, 0x25, 0x71, 0x78, 0x50, 0xC2, 0x6C, 0x9C, 0xD0,
     0xD8, 0x9D] := by decide +kernel

theorem test_digest_sha256 : hashDigest Params.spec { hashInit .sha256 with buf := abc } =
    [0xBA, 0x78, 0x16, 0xBF, 0x8F, 0x01, 0xCF, 0xEA, 0x41, 0x41, 0x40, 0xDE, 0x5D, 0xAE, 0x22, 0x23, 0xB0, 0x03,
     0x61, 0xA3, 0x96, 0x17, 0x7A, 0x9C, 0xB4, 0x10, 0xFF, 0x61, 0xF2, 0x00, 0x15, 0xAD] := by decide +kernel

theorem test_digest_sha384 : hashDigest Params.spec { hashInit .sha384 with buf := abc } =
    [0xCB, 0x00, 0x75, 0x3F, 0x45, 0xA3, 0x5E, 0x8B, 0xB5, 0xA0, 0x3D, 0x69, 0x9A, 0xC6, 0x50, 0x07, 0x27, 0x2C,
     0x32, 0xAB, 0x0E, 0xDE, 0xD1, 0x63, 0x1A, 0x8B, 0x60, 0x5A, 0x43, 0xFF, 0x5B, 0xED, 0x80, 0x86, 0x07, 0x2B,
     0xA1, 0xE7, 0xCC, 0x23, 0x58, 0xBA, 0xEC, 0xA1, 0x34, 0xC8, 0x25, 0xA7] := by decide +kernel

theorem test_digest_sha512 : hashDigest Params.spec { hashInit .sha512 with buf := abc } =
    [0xDD, 0xAF, 0x35, 0xA1, 0x93, 0x61, 0x7A, 0xBA, 0xCC, 0x41, 0x73, 0x49, 0xAE, 0x20, 0x41, 0x31, 0x12, 0xE6,
     0xFA, 0x4E, 0x89, 0xA9, 0x7E, 0xA2, 0x0A, 0x9E, 0xEE, 0xE6, 0x4B, 0x55, 0xD3, 0x9A, 0x21, 0x92, 0x99, 0x2A,
     0x27, 0x4F, 0xC1, 0xA8, 0x36, 0xBA, 0x3C, 0x23, 0xA3, 0xFE, 0xEB, 0xBD, 0x45, 0x4D, 0x44, 0x23, 0x64, 0x3C,
     0xE8, 0x0E, 0x2A, 0x9A, 0xC9, 0x4F, 0xA5, 0x4C, 0xA4, 0x9F] := by decide +kernel

theorem test_digest_ripemd128 : hashDigest Params.spec { hashInit .ripemd128 with buf := abc } =
    [0xC1, 0x4A, 0x12, 0x19, 0x9C, 0x66, 0xE4, 0xBA, 0x84, 0x63, 0x6B, 0x0F, 0x69, 0x14, 0x4C, 0x77] := by decide +kernel

theorem test_digest_ripemd160 : hashDigest Params.spec { hashInit .ripemd160 with buf := abc } =
    [0x8E, 0xB2, 0x08, 0xF7, 0xE0, 0x5D, 0x98, 0x7A, 0x9B, 0x04, 0x4A, 0x8E, 0x98, 0xC6, 0xB0, 0x87, 0xF1, 0x5A,
     0x0B, 0xFC] := by decide +kernel

theorem test_digest_ripemd256 : hashDigest Params.spec { hashInit .ripemd256 with buf := abc } =
    [0xAF, 0xBD, 0x6E, 0x22, 0x8B, 0x9D, 0x8C, 0xBB, 0xCE, 0xF5, 0xCA, 0x2D, 0x03, 0xE6, 0xDB, 0xA1, 0x0A, 0xC0,
     0xBC, 0x7D, 0xCB, 0xE4, 0x68, 0x0E, 0x1E, 0x42, 0xD2, 0xE9, 0x75, 0x45, 0x9B, 0x65] := by decide +kernel

theorem test_digest_whirlpool : hashDigest Params.spec { hashInit .whirlpool with buf := abc } =
    [0x4E, 0x24, 0x48, 0xA4, 0xC6, 0xF4, 0x86, 0xBB, 0x16, 0xB6, 0x56, 0x2C, 0x73, 0xB4, 0x02, 0x0B, 0xF3, 0x04,
     0x3E, 0x3A, 0x73, 0x1B, 0xCE, 0x72, 0x1A, 0xE1, 0xB3, 0x03, 0xD9, 0x7E, 0x6D, 0x4C, 0x71, 0x81, 0xEE, 0xBD,
     0xB6, 0xC5, 0x7E, 0x27, 0x7D, 0x0E, 0x34, 0x95, 0x71, 0x14, 0xCB, 0xD6, 0xC7, 0x97, 0xFC, 0x9D, 0x95, 0xD8,
     0xB5, 0x82, 0xD2, 0x25, 0x29, 0x20, 0x76, 0xD4, 0xEE, 0xF5] := by decide +kernel

theorem test_digest_tiger : hashDigest Params.spec { hashInit .tiger with buf := abc } =
    [0x2A, 0xAB, 0x14, 0x84, 0xE8, 0xC1, 0x58, 0xF2, 0xBF, 0xB8, 0xC5, 0xFF, 0x41, 0xB5, 0x7A, 0x52, 0x51, 0x29,
     0x13, 0x1C, 0x95, 0x7B, 0x5F, 0x93] := by decide +kernel

theorem test_digest_haval_3_128 : hashDigest Params.spec { hashInit (.haval .three .b128) with buf := abc } =
    [0x9E, 0x40, 0xED, 0x88, 0x3F, 0xB6, 0x3E, 0x98, 0x5D, 0x29, 0x9B, 0x40, 0xCD, 0xA2, 0xB8, 0xF2] := by decide +kernel

theorem test_digest_haval_4_192 : hashDigest Params.spec { hashInit (.haval .four .b192) with buf := abc } =
    [0x7E, 0x29, 0x88, 0x1E, 0xD0, 0x5C, 0x91, 0x59, 0x03, 0xDD, 0x5E, 0x24, 0xA8, 0xE8, 0x1C, 0xDE, 0x5D, 0x91,
     0x01, 0x42, 0xAE, 0x66, 0x20, 0x7C] := by decide +kernel

theorem test_digest_haval_5_256 : hashDigest Params.spec { hashInit (.haval .five .b256) with buf := abc } =
    [0x97, 0x6C, 0xD6, 0x25, 0x4C, 0x33, 0x79, 0x69, 0xE5, 0x91, 0x3B, 0x15, 0x83, 0x92, 0xA2, 0x92, 0x1A, 0xF1,
     0x6F, 0xCA, 0x51, 0xF5, 0x60, 0x1D, 0x48, 0x6E, 0x0A, 0x9D, 0xE0, 0x11, 0x56, 0xE7] := by decide +kernel

/-! ## Witnesses: for every statement with hypotheses, inputs that meet all of them, at the boundary of each clause -/

theorem witness_DecodeOfEncodeIsTheCommand :
    (Instr.compute 0xFF (List.replicate (2 ^ 32 - 1) 0)).wellFormed = true ∧ (Instr.update 0 []).wellFormed = true := by
  rw [(wellFormed_replicate _).2]
  decide

theorem witness_DecodedBytesAreTheEncoding :
    decode [0x06, 0x04, 0x00, 0x00, 0x00, 0x00, 0x00, 0x01, 0x80, 0x07] = .command (.compute 4 [0x80]) [0x07] := by decide

/-- An opcode below and one above the table. -/
theorem witness_IllegalWords_opcode :
    (sent [0x00, 0x00, 0x00, 0x00]).fault = none ∧ (0x00 : Byte) ∉ ([1, 2, 3, 4, 5, 6, 7, 8] : List Byte) ∧
    (0x09 : Byte) ∉ ([1, 2, 3, 4, 5, 6, 7, 8] : List Byte) ∧
    (sent [0x00, 0x00, 0x00, 0x00]).commands = [0x00, 0x00, 0x00, (0 : Nibble) ++ (0 : Nibble)] ++ [] := by decide

/-- A reserved field of a plain header, of CRC_CONSTRUCT at the least illegal C, and of UPDATE with its data. -/
theorem witness_IllegalWords_reserved :
    (reservedBroken 0x07 0 0 1 ∧ operandsOf 0x07 []) ∧
    (reservedBroken 0x02 8 0 2 ∧ operandsOf 0x02 (List.replicate 24 0)) ∧
    (reservedBroken 0x04 1 0 0 ∧ operandsOf 0x04 ([0, 0, 0, 1] ++ [0x61])) ∧
    (sent [0x07, 0x00, 0x00, 0x01]).commands = [0x07, 0x00, 0x00, (0 : Nibble) ++ (1 : Nibble)] ++ [] ++ [] := by
  refine ⟨⟨.inl (by decide), .inl (by decide)⟩, ⟨.inr (by decide), .inr (.inl (by decide))⟩,
    ⟨.inl (by decide), .inr (.inr ⟨by decide, [0, 0, 0, 1], [0x61], rfl, rfl, by decide⟩)⟩, by decide⟩

/-- Both ends of the unknown algorithm ids, on an empty slot, an occupied one and one out of range. -/
theorem witness_UnknownAlgorithmRaisesConfigAlg :
    (0x0C ≤ (0x0C : Byte).toNat) ∧ State.reset.fault = none ∧ slotIndex 3 < State.reset.nSlots ∧
    State.reset.slotAt (slotIndex 3) = .empty ∧ State.reset.nSlots ≤ slotIndex 4 ∧
    (slot0 (.hash (hashInit .md5))).slotAt (slotIndex 0) ≠ .empty ∧
    (sent [0x01, 0x03, 0x0C, 0x00]).commands = [0x01, 3, 0x0C, (0 : Nibble) ++ (0 : Nibble)] ++ [] := by decide

theorem witness_StepRunsDecodedCommand :
    (sent [0x07, 0x03, 0x00, 0x00]).fault = none ∧
    decode (sent [0x07, 0x03, 0x00, 0x00]).commands = .command (.status 3) [] := by decide

theorem witness_HaltedEngineTakesNoStep : { State.reset with fault := some aFault }.fault = some aFault := rfl

/-- A command and a rejected word, both arrived. -/
theorem witness_ArrivedCommandCompletesOrFaults :
    State.reset.fault = none ∧ decode (sent [0x07, 0x00, 0x00, 0x00]).commands ≠ .incomplete ∧
    decode (sent [0x09, 0x00, 0x00, 0x00]).commands ≠ .incomplete := by decide

theorem witness_CompletedStepConsumesOneCommand :
    ∃ t, step (sent [0x07, 0x00, 0x00, 0x00, 0x05]) = .next t ∧ t.fault = none := ⟨_, rfl, by decide⟩

/-- The last slot of the spec's example device is ready and empty (for the CONSTRUCT statements, and the commands that
find an empty slot). -/
theorem witness_ConstructBindsInitialState :
    Ready State.reset 3 ∧ State.reset.slotAt (slotIndex 3) = .empty ∧
    (Instr.constructTiger 3 0 0, Alg.tiger) ∈ plainConstructs 3 0 0 := by decide

/-- Both corners of the HAVAL parameters. -/
theorem witness_ConstructHavalBindsPassesAndLength :
    Ready State.reset 0 ∧ State.reset.slotAt (slotIndex 0) = .empty ∧ 3 ≤ (3 : Nibble).toNat ∧ (5 : Nibble).toNat ≤ 5 ∧
    4 ≤ (4 : Nibble).toNat ∧ (8 : Nibble).toNat ≤ 8 := by decide

theorem witness_UnwantedParametersRaiseConfigParam :
    Ready State.reset 0 ∧ State.reset.slotAt (slotIndex 0) = .empty ∧ ¬((0 : Nibble) = 0 ∧ (1 : Nibble) = 0) ∧
    ¬((1 : Nibble) = 0 ∧ (0 : Nibble) = 0) ∧ (Instr.constructMd5 0 1 0, Alg.md5) ∈ plainConstructs 0 1 0 := by decide

/-- One step outside each bound. -/
theorem witness_BadHavalParametersRaiseConfigHaval :
    Ready State.reset 0 ∧ State.reset.slotAt (slotIndex 0) = .empty ∧
    ∀ bc ∈ ([(2, 8), (6, 4), (3, 3), (5, 9)] : List (Nibble × Nibble)),
      ¬((3 ≤ bc.1.toNat ∧ bc.1.toNat ≤ 5) ∧ (4 ≤ bc.2.toNat ∧ bc.2.toNat ≤ 8)) := by
  decide +kernel

theorem witness_ConstructionOnBusySlotRaises :
    Ready (slot0 (.hash (hashInit .md5))) 0 ∧ (slot0 (.hash (hashInit .md5))).slotAt (slotIndex 0) ≠ .empty ∧
    (Instr.constructSha1 0 2 9, Alg.sha1) ∈ plainConstructs 0 2 9 := by decide

/-- The first slot number out of range, and a device of 256 slots. -/
theorem witness_SlotOutOfRangeRaisesBadSlot :
    State.reset.fault = none ∧ State.reset.nSlots ≤ (Instr.status 4).slot.toNat ∧
    (State.resetOf 256 Params.spec).nSlots = 256 ∧ slotIndex (Instr.status 255).slot < 256 := by
  exact ⟨rfl, by decide, List.length_replicate, by decide⟩

theorem witness_CommandsOnEmptySlotRaise :
    Ready State.reset 0 ∧ State.reset.slotAt (slotIndex 0) = .empty ∧
    Instr.destroy 0 ∈ ([.reset 0, .update 0 [], .finalize 0, .compute 0 [], .destroy 0] : List Instr) := by decide

/-- A finalized hash slot and a finalized CRC slot, ready (for RESET, the usage errors, COMPUTE, STATUS and DESTROY). -/
theorem witness_ResetRestoresInitialState :
    Ready (slot0 (.hash { md5With 63 with phase := .finalized })) 0 ∧
    (slot0 (.hash { md5With 63 with phase := .finalized })).slotAt (slotIndex 0) =
      .hash { md5With 63 with phase := .finalized } ∧
    Ready (slot0 (.crc { params := crc32, table := [], reg := 0, phase := .finalized })) 0 ∧
    (slot0 (.crc { params := crc32, table := [], reg := 0, phase := .finalized })).slotAt (slotIndex 0) =
      .crc { params := crc32, table := [], reg := 0, phase := .finalized } := by decide

/-- An active instance with one byte less than a block buffered, the most the hypothesis allows. -/
theorem witness_UpdateFoldsWholeBlocks :
    Ready (slot0 (.hash (md5With 63))) 0 ∧ (slot0 (.hash (md5With 63))).slotAt (slotIndex 0) = .hash (md5With 63) ∧
    (md5With 63).phase = .active ∧ buffered (md5With 63) < blockSize (md5With 63).desc := by decide

/-- Each of the four clauses: active and finalized, hash and CRC. -/
theorem witness_ZeroLengthUpdateChangesNothing :
    Ready (slot0 (.hash (md5With 0))) 0 ∧ (slot0 (.hash (md5With 0))).slotAt (slotIndex 0) = .hash (md5With 0) ∧
    buffered (md5With 0) < blockSize (md5With 0).desc ∧ (md5With 0).phase = .active ∧
    (slot0 (.hash { md5With 63 with phase := .finalized })).slotAt (slotIndex 0) =
      .hash { md5With 63 with phase := .finalized } ∧
    buffered { md5With 63 with phase := .finalized } < blockSize .md5 ∧
    (slot0 (.crc { params := crc32, table := [], reg := 0, phase := .active })).slotAt (slotIndex 0) =
      .crc { params := crc32, table := [], reg := 0, phase := .active } := by decide

/-- A fresh instance, which meets the premise of the last clause too. -/
theorem witness_ChunkInvariance :
    Ready (slot0 (.hash (hashInit .md5))) 0 ∧ (slot0 (.hash (hashInit .md5))).slotAt (slotIndex 0) = .hash (hashInit .md5) ∧
    (hashInit .md5).phase = .active ∧ buffered (hashInit .md5) < blockSize (hashInit .md5).desc ∧
    hashInit .md5 = hashInit (hashInit .md5).desc := by decide

theorem witness_StreamingEqualsOneShot :
    Ready (slot0 (.hash (hashInit (.haval .three .b128)))) 0 ∧
    (slot0 (.hash (hashInit (.haval .three .b128)))).slotAt (slotIndex 0) = .hash (hashInit (.haval .three .b128)) := by
  decide

/-- Well-formed active instances with 0 and with 63 bytes buffered. -/
theorem witness_FinalizeAnswersDigest :
    Ready (slot0 (.hash (md5With 63))) 0 ∧ (slot0 (.hash (md5With 63))).slotAt (slotIndex 0) = .hash (md5With 63) ∧
    (md5With 63).phase = .active ∧ hashWf (md5With 63) = true ∧ hashWf (md5With 0) = true ∧
    hashWf (hashInit .whirlpool) = true := by decide

theorem witness_FinalizedInstanceRaisesUsageErrors :
    Ready (slot0 (.hash { md5With 63 with phase := .finalized })) 0 ∧
    (slot0 (.hash { md5With 63 with phase := .finalized })).slotAt (slotIndex 0) =
      .hash { md5With 63 with phase := .finalized } ∧
    { md5With 63 with phase := .finalized }.phase = .finalized ∧
    (slot0 (.crc { params := crc32, table := [], reg := 0, phase := .finalized })).slotAt (slotIndex 0) =
      .crc { params := crc32, table := [], reg := 0, phase := .finalized } := by decide

/-- The last clause of the usage statement: RESET of slot 1, which is empty, raises another error. -/
theorem witness_FinalizedInstanceRaisesUsageErrors_other :
    Ready (slot0 .empty) 1 ∧ Instr.reset 1 ∈ ([.reset 1, .compute 1 [], .status 1, .destroy 1] : List Instr) ∧
    ∃ t r, exec (.reset 1) (slot0 .empty) = .next t ∧ t.fault = some r := ⟨by decide, by decide, _, _, rfl, rfl⟩

theorem witness_ComputeIsResetUpdateFinalize :
    Ready (slot0 (.hash { md5With 63 with phase := .finalized })) 0 ∧
    (slot0 (.hash { md5With 63 with phase := .finalized })).slotAt (slotIndex 0) ≠ .empty ∧
    (slot0 (.crc { params := crc32, table := [], reg := 0, phase := .active })).slotAt (slotIndex 0) ≠ .empty := by decide

theorem witness_ComputeAnswersOneShotDigest :
    Ready (slot0 (.hash (md5With 63))) 0 ∧ (slot0 (.hash (md5With 63))).slotAt (slotIndex 0) = .hash (md5With 63) := by
  decide

/-- The three clauses of STATUS, with BUFFERED at the largest value a block leaves. -/
theorem witness_StatusReportsSlotFields :
    Ready (slot0 .empty) 0 ∧ (slot0 .empty).slotAt (slotIndex 0) = .empty ∧
    (slot0 (.hash { hashInit (.haval .five .b256) with buf := List.replicate 127 0 })).slotAt (slotIndex 0) =
      .hash { hashInit (.haval .five .b256) with buf := List.replicate 127 0 } ∧
    buffered { hashInit (.haval .five .b256) with buf := List.replicate 127 0 } < 256 ∧
    (∀ passes hlen, (hashInit .md5).desc ≠ .haval passes hlen) ∧
    (slot0 (.crc { params := crc32, table := [], reg := 0, phase := .active })).slotAt (slotIndex 0) =
      .crc { params := crc32, table := [], reg := 0, phase := .active } := by
  refine ⟨by decide, by decide, rfl, by decide +kernel, ?_, by decide⟩
  intro passes hlen h
  cases h

theorem witness_DestroyEmptiesSlot :
    Ready (slot0 (.hash (hashInit .md5))) 0 ∧ (slot0 (.hash (hashInit .md5))).slotAt (slotIndex 0) ≠ .empty := by decide

/-- Order 8 with every value at its largest, and order 64. -/
theorem witness_CrcConstructBindsParameters :
    Ready State.reset 0 ∧ State.reset.slotAt (slotIndex 0) = .empty ∧ cacheWf State.reset.cache = true ∧
    orderBits .o8 = (8 : Byte).toNat ∧
    crcParamsWf { order := .o8, poly := 0xFF, init := 0xFF, xorout := 0xFF, reflect := true } = true ∧
    orderBits .o64 = (64 : Byte).toNat ∧
    crcParamsWf { order := .o64, poly := 0xFFFFFFFFFFFFFFFF, init := 0, xorout := 1, reflect := false } = true := by decide

/-- Orders that are not in the set, and the least value that is too wide. -/
theorem witness_CrcConfigurationChecks :
    Ready State.reset 0 ∧ State.reset.slotAt (slotIndex 0) = .empty ∧
    (12 : Byte).toNat ∉ [8, 16, 24, 32, 40, 48, 56, 64] ∧ (72 : Byte).toNat ∉ [8, 16, 24, 32, 40, 48, 56, 64] ∧
    (8 : Byte).toNat ∈ [8, 16, 24, 32, 40, 48, 56, 64] ∧ 2 ^ (8 : Byte).toNat ≤ (0x100 : Word64).toNat := by decide

theorem witness_CacheLookupInsertsOnce :
    cacheFind [(crc32, [1])] crc32 = some [1] ∧ cacheFind [] crc32 = none ∧ { crc32 with init := 0 } ≠ crc32 := by decide

/-- Two constructions of CRC-8 in two slots of the device after reset complete. -/
theorem witness_ColdAndWarmCacheAgree :
    State.reset.inv = true ∧ slotIndex 0 ≠ slotIndex 1 ∧
    ∃ t u, exec (.crcConstruct 0 8 false 7 0 0) State.reset = .next t ∧ t.fault = none ∧
      exec (.crcConstruct 1 8 false 7 0 0) t = .next u ∧ u.fault = none :=
  ⟨by decide, by decide, _, _, rfl, rfl, rfl, rfl⟩

/-- CRC-32 parameters, its table and the widest register, in both forms. -/
theorem witness_TableDrivenCrcIsBitSerial :
    crcParamsWf crc32 = true ∧ crc32Inst.table = genTable crc32Inst.params ∧ fitsOrder crc32.order 0xFFFFFFFF = true ∧
    crc32Inst.params.reflect = true ∧ { crc32 with reflect := false }.reflect = false := by
  refine ⟨by decide, rfl, by decide, rfl, rfl⟩

theorem witness_CrcUpdateThreadsBytes :
    Ready (slot0 (.crc { params := crc32, table := [], reg := 0, phase := .active })) 0 ∧
    (slot0 (.crc { params := crc32, table := [], reg := 0, phase := .active })).slotAt (slotIndex 0) =
      .crc { params := crc32, table := [], reg := 0, phase := .active } := by decide

theorem witness_CrcFinalizeAnswersRegister :
    Ready (slot0 (.crc { params := crc32, table := [], reg := 0, phase := .active })) 0 ∧
    (slot0 (.crc { params := crc32, table := [], reg := 0, phase := .active })).slotAt (slotIndex 0) =
      .crc { params := crc32, table := [], reg := 0, phase := .active } := by decide

/-- The last length that pads into one block, the first that needs two, and the last below a block. -/
theorem witness_FinalBlockCountByBuffered :
    (List.replicate 55 (0 : Byte)).length ≤ oneBlockUpTo .md5 ∧ oneBlockUpTo .md5 < (List.replicate 56 (0 : Byte)).length ∧
    (List.replicate 63 (0 : Byte)).length < blockSize .md5 ∧
    oneBlockUpTo .whirlpool < (List.replicate 32 (0 : Byte)).length ∧
    oneBlockUpTo (.haval .three .b128) < (List.replicate 118 (0 : Byte)).length := by decide

theorem witness_ConversionRoundTrips :
    64 ∈ [8, 16, 32, 64] ∧ (List.replicate 16 (0 : Byte)).length % (64 / 8) = 0 ∧ 0 < 1 ∧ 63 < 64 := by decide

theorem witness_RotationIsByModulo : 0 < 1 := by decide

theorem witness_ReflectReversesBits :
    8 ∈ [8, 16, 24, 32, 40, 48, 56, 64] ∧ 7 < 8 ∧ (0xFF : Word64).toNat < 2 ^ 8 ∧ (1 ≤ 64 ∧ 64 ≤ 64) := by decide

theorem witness_CompressKeepsAccumulatorShape :
    accShape .whirlpool (initialAcc .whirlpool) = true ∧ (List.replicate 64 (0 : Byte)).length = blockSize .whirlpool ∧
    accShape .sha384 (initialAcc .sha384) = true ∧ (List.replicate 128 (0 : Byte)).length = blockSize .sha384 := by decide

theorem witness_ShaSchedulesSatisfyRecurrence :
    (List.replicate 64 (0 : Byte)).length = 64 ∧ (List.replicate 128 (0 : Byte)).length = 2 * 64 ∧ 64 ∈ [32, 64] ∧
    (16 ≤ 16 ∧ 79 < 80) := by decide

theorem witness_WhirlpoolLayersEntryByEntry : (List.replicate 64 (0 : Byte)).length = 64 ∧ 0 < 8 ∧ 7 < 8 := by decide

theorem witness_HavalStepRegisters : 31 < 32 ∧ havalIV.length = 8 := by decide

theorem witness_InvariantHoldsAtReset : 1 ≤ 256 ∧ 256 ≤ 256 := by decide

/-- A step from a state with the invariant completes, and one raises an error. -/
theorem witness_StepKeepsInvariant :
    (sent [0x01, 0x00, 0x01, 0x00]).inv = true ∧ (∃ t, step (sent [0x01, 0x00, 0x01, 0x00]) = .next t ∧ t.fault = none) ∧
    (sent [0x05, 0x00, 0x00, 0x00]).inv = true ∧ ∃ t, step (sent [0x05, 0x00, 0x00, 0x00]) = .next t ∧ t.fault ≠ none :=
  ⟨by decide, ⟨_, rfl, rfl⟩, by decide, _, rfl, by decide⟩

/-- The invariant holds with a bound, active instance too. -/
theorem witness_inv_bound : (slot0 (.hash (md5With 63))).inv = true := by decide

theorem witness_CommandChangesOnlyItsSlot :
    (∃ t, exec (.destroy 0) (slot0 (.hash (hashInit .md5))) = .next t) ∧
    (∀ slot order refl poly init xorout, Instr.destroy 0 ≠ .crcConstruct slot order refl poly init xorout) ∧
    1 ≠ slotIndex (Instr.destroy 0).slot :=
  ⟨⟨_, rfl⟩, fun _ _ _ _ _ _ => Instr.noConfusion, by decide⟩

/-- A run that constructs in two slots and completes. -/
theorem witness_SlotIgnoresOtherSlotsCommands :
    cacheWf State.reset.cache = true ∧
    ∃ t log, runLog [.constructMd5 0 0 0, .constructTiger 1 0 0, .status 0] State.reset = some (t, log) ∧ t.fault = none :=
  ⟨by decide, _, _, rfl, rfl⟩

theorem witness_CommandsToDistinctSlotsCommute :
    cacheWf State.reset.cache = true ∧ slotIndex (Instr.constructMd5 0 0 0).slot ≠ slotIndex (Instr.status 1).slot ∧
    ∃ a t, exec (.constructMd5 0 0 0) State.reset = .next a ∧ a.fault = none ∧ exec (.status 1) a = .next t ∧
      t.fault = none :=
  ⟨by decide, by decide, _, _, rfl, rfl, rfl, rfl⟩

/-- The empty cache, and a cache with one generated table. -/
theorem witness_CacheIsNotObservable :
    State.reset.fault = none ∧ cacheWf State.reset.cache = true ∧ cacheWf [(crc32, genTable crc32)] = true := by
  refine ⟨rfl, by decide, ?_⟩
  have h : crcParamsWf crc32 = true := by decide
  simp [cacheWf, keysRise, h]

theorem witness_FaultEntryIsPrecise :
    State.reset.fault = none ∧ ∃ t, exec (.finalize 0) State.reset = .next t ∧ t.fault ≠ none :=
  ⟨rfl, _, rfl, by decide⟩

theorem witness_EachCommandAppendsOneResponse : State.reset.inv = true ∧ State.reset.fault = none := by decide

/-- The word of `STATUS 3` (30_encoding R89), placed where the step takes its next command: the status byte and the word 0. -/
theorem test_withFetchWord_status :
    ∃ t, step (State.reset.withFetchWord 32 0x07030000) = .next t ∧ t.responses = [0, 0, 0, 0, 0, 0, 0, 0, 0] :=
  ⟨_, rfl, by decide⟩

end Sys2Proof.Tests
end

section
/-! PROOFS of the statements on the state: the fault state and the cache (10_state R30, R31), the STATUS word (R34), the
accumulator's shape (R24) and the invariant. -/

namespace Sys2Proof.Machine

open Sys2Proof.Claims

/-! ### Fault and cache -/

theorem step_halted {s : State} {r : FaultRecord} (hf : s.fault = some r) : step s = .fault (.halted r) := by
  simp [step, fetch, hf]

/-- Settles O7: neither a step nor a command has an answer but `halted` once the fault record is set. -/
theorem haltedEngineTakesNoStep : Obligations.HaltedEngineTakesNoStep :=
  fun _ _ hf => ⟨step_halted hf, fun i => exec_halted i hf⟩

/-- Settles O58: a correct cache is read only for the generated table, which is the same in every correct cache. -/
theorem cacheIsNotObservable : Obligations.CacheIsNotObservable := by
  intro i s other hf hc ho
  rcases Nat.lt_or_ge (slotIndex i.slot) s.nSlots with hk | hk
  · have hs := exec_ready i hf hk
    have ht := exec_ready (s := { s with cache := other }) i hf hk
    cases hr : effect s.params s.cache i (s.slotAt (slotIndex i.slot)) with
    | error e =>
      rw [hr] at hs
      have hr' : effect s.params other i (s.slotAt (slotIndex i.slot)) = .error e := effect_error_other_cache hr
      exact ⟨_, _, hs, ht.trans (congrArg (answer _ _) hr'), rfl, ho⟩
    | ok r =>
      rw [hr] at hs
      have hr' : effect s.params other i (s.slotAt (slotIndex i.slot)) = .ok (r.1, r.2.1, cacheAfter i other) :=
        effect_other_cache hc ho hr
      exact ⟨_, _, hs, ht.trans (congrArg (answer _ _) hr'), rfl, cacheWf_cacheAfter i ho⟩
  · exact ⟨_, _, exec_bad i hf hk, exec_bad (s := { s with cache := other }) i hf hk, rfl, ho⟩

/-! ### Completion -/

/-- A command with an effect on the slot it names completes with that effect, on a ready device. -/
theorem completes_of_effect {s : State} {i : Instr} {r : Effect} (h : Ready s i.slot)
    (hr : effect s.params s.cache i (s.slotAt (slotIndex i.slot)) = .ok r) :
    Completes s i.slot r.1 r.2.1 r.2.2 (exec i s) := by
  obtain ⟨hf, hk⟩ := h
  refine ⟨s.done i.slot r, ?_, s.done_slotAt_same i.slot r hk, fun j hj => s.done_slotAt_ne i.slot r hj, ?_⟩
  · rw [exec_ready i hf hk, hr, answer]
  · simp [hf]

/-! ### The STATUS word -/

theorem phaseBit_eq_ite (p : Phase) : phaseBit p = if p = .finalized then 1 else 0 := by cases p <;> rfl

theorem statusPasses_haval (passes : HavalPasses) (hlen : HavalLen) :
    (statusPasses (.haval passes hlen)).toNat = havalPassCount passes := by cases passes <;> rfl

theorem statusLenCode_haval (passes : HavalPasses) (hlen : HavalLen) :
    (statusLenCode (.haval passes hlen)).toNat = havalBits hlen / 32 := by cases hlen <;> rfl

theorem statusPasses_plain {a : Alg} (h : ∀ passes hlen, a ≠ .haval passes hlen) : statusPasses a = 0 := by
  cases a with
  | haval passes hlen => exact absurd rfl (h passes hlen)
  | _ => rfl

theorem statusLenCode_plain {a : Alg} (h : ∀ passes hlen, a ≠ .haval passes hlen) : statusLenCode a = 0 := by
  cases a with
  | haval passes hlen => exact absurd rfl (h passes hlen)
  | _ => rfl

theorem statusWord_empty : statusWord .empty = 0 := by decide

theorem orderBits_byte (o : CrcOrder) : (BitVec.ofNat 8 (orderBits o)).toNat = orderBits o := by cases o <;> rfl

/-- Settles O28: each field of the packed word reads back (`packStatus_…`), and holds the slot's value. -/
theorem statusReportsSlotFields : Obligations.StatusReportsSlotFields := by
  intro s slot h
  refine ⟨statusWord (s.slotAt (slotIndex slot)), completes_of_effect (i := .status slot) h rfl, ?_, ?_, ?_⟩
  · intro hv
    rw [hv, statusWord_empty]
  · intro i hv
    rw [hv]
    simp only [statusWord, packStatus_constructed, packStatus_finalized, packStatus_isCrc, packStatus_reserved,
      packStatus_algOrOrder, packStatus_passes, packStatus_lenCode, packStatus_buffered, packStatus_countLo]
    refine ⟨trivial, phaseBit_eq_ite _, trivial, trivial, trivial, ?_, ?_, ?_, BitVec.toNat_ofNat ..⟩
    · intro passes hlen hd
      rw [hd]
      exact ⟨statusPasses_haval passes hlen, statusLenCode_haval passes hlen⟩
    · exact fun hd => ⟨statusPasses_plain hd, statusLenCode_plain hd⟩
    · exact fun hb => (BitVec.toNat_ofNat ..).trans (Nat.mod_eq_of_lt hb)
  · intro c hv
    rw [hv]
    simp only [statusWord, packStatus_constructed, packStatus_finalized, packStatus_isCrc, packStatus_reserved,
      packStatus_algOrOrder, packStatus_passes, packStatus_lenCode, packStatus_buffered, packStatus_countLo]
    exact ⟨trivial, phaseBit_eq_ite _, trivial, trivial, orderBits_byte _, trivial, rfl, trivial, trivial⟩

/-! ### The shape of what a core answers -/

theorem havalStep_length (passes : HavalPasses) (w : List Word32) (p : Nat) (t : List Word32) (i : Nat) :
    (havalStep passes w p t i).length = t.length := List.length_set

theorem havalPass_length (passes : HavalPasses) (w t : List Word32) (p : Nat) :
    (havalPass passes w t p).length = t.length :=
  List.foldlRecOn (List.range 32) (havalStep passes w p) (motive := fun r => r.length = t.length) rfl
    fun r hr i _ => (havalStep_length passes w p r i).trans hr

theorem havalCompress_length (passes : HavalPasses) (acc : List Word32) (block : List Byte) :
    (havalCompress passes acc block).length = 8 := by
  have hfold : ∀ w h : List Word32, h.length = 8 →
      ((List.range' 1 (havalPassCount passes)).foldl (havalPass passes w) h).length = 8 := fun w h hh =>
    List.foldlRecOn _ (havalPass passes w) (motive := fun r => r.length = 8) hh
      fun r hr p _ => (havalPass_length passes w r p).trans hr
  simp [havalCompress, hfold]

theorem whirlpoolMatrix_length (f : Nat → Nat → Byte) : (whirlpoolMatrix f).length = 64 := by simp [whirlpoolMatrix]

theorem whirlpoolSigma_length {k m : List Byte} (hk : k.length = 64) (hm : m.length = 64) :
    (whirlpoolSigma k m).length = 64 := by simp [whirlpoolSigma, hk, hm]

theorem whirlpoolRho_length {k : List Byte} (m : List Byte) (hk : k.length = 64) : (whirlpoolRho k m).length = 64 :=
  whirlpoolSigma_length hk (whirlpoolMatrix_length _)

theorem whirlpoolSbox_length : whirlpoolSbox.length = 256 := by
  simp only [whirlpoolSbox, List.length_append]
  rfl

theorem whirlpoolRC_length {r : Nat} (hr : r ≤ 10) : (whirlpoolRC r).length = 64 := by
  simp only [whirlpoolRC, List.length_append, List.length_take, List.length_drop, List.length_replicate,
    whirlpoolSbox_length]
  omega

/-- Every round leaves a key and a state of 64 bytes, so the cipher answers 64 bytes (47_whirlpool R306). -/
theorem whirlpoolCipher_length {key m : List Byte} (hk : key.length = 64) (hm : m.length = 64) :
    (whirlpoolCipher key m).length = 64 :=
  List.foldlRecOn (List.range' 1 10) whirlpoolRound (motive := fun ks => ks.2.length = 64) (whirlpoolSigma_length hk hm)
    fun ks _ r hr => by
      have hr10 : r ≤ 10 := by simp at hr; omega
      exact whirlpoolRho_length _ (whirlpoolRho_length _ (whirlpoolRC_length hr10))

theorem whirlpoolBytes_length (acc : List Word64) : (whirlpoolBytes acc).length = 8 * acc.length := by
  simp [whirlpoolBytes, List.length_flatMap, Nat.mul_comm]

theorem whirlpoolCompress_length {acc : List Word64} {block : List Byte} (ha : acc.length = 8)
    (hb : block.length = 64) : (whirlpoolCompress acc block).length = 8 := by
  have hh : (whirlpoolBytes acc).length = 64 := by rw [whirlpoolBytes_length, ha]
  have hout := whirlpoolSigma_length hb (whirlpoolSigma_length hh (whirlpoolCipher_length hh hb))
  unfold whirlpoolCompress
  rw [blockWords_beWords_length (by rw [hout]), hout]

theorem accShape_w32 {a : Alg} {ws : List Word32} (hw : (descriptor Params.spec a).wordBits = 32)
    (hl : ws.length = (descriptor Params.spec a).accWords) : accShape a (.w32 ws) = true := by simp [accShape, hw, hl]

theorem accShape_w64 {a : Alg} {ws : List Word64} (hw : (descriptor Params.spec a).wordBits = 64)
    (hl : ws.length = (descriptor Params.spec a).accWords) : accShape a (.w64 ws) = true := by simp [accShape, hw, hl]

/-- A Whirlpool accumulator of its shape is 8 words of 64 bits (47_whirlpool R307). -/
theorem accWords64_length_of_whirlpool {acc : Acc} (h : accShape .whirlpool acc = true) :
    (accWords64 acc).length = 8 := by
  cases acc with
  | w32 ws => simp [accShape, descriptor] at h
  | w64 ws => simpa [accWords64, accShape, descriptor] using h

/-- Most cores list their words, so only HAVAL's and Whirlpool's need an argument. -/
theorem accShape_compress {a : Alg} {acc : Acc} {block : List Byte} (ha : accShape a acc = true)
    (hb : block.length = blockSize a) : accShape a (compress a acc block) = true := by
  cases a with
  | haval passes hlen => exact accShape_w32 rfl (havalCompress_length passes _ block)
  | whirlpool => exact accShape_w64 rfl (whirlpoolCompress_length (accWords64_length_of_whirlpool ha) hb)
  | sha384 => exact accShape_w64 rfl rfl
  | sha512 => exact accShape_w64 rfl rfl
  | tiger => exact accShape_w64 rfl rfl
  | _ => exact accShape_w32 rfl rfl

/-- Settles O45, core by core in `accShape_compress`. -/
theorem compressKeepsAccumulatorShape : Obligations.CompressKeepsAccumulatorShape :=
  fun _ _ _ => accShape_compress

/-! ### Well-formed hash engines -/

/-- The block loop keeps the shape as long as it takes whole blocks. -/
theorem accShape_compressBlocks {a : Alg} (k : Nat) {acc : Acc} {data : List Byte} (ha : accShape a acc = true)
    (hk : k * blockSize a ≤ data.length) : accShape a (compressBlocks a k acc data) = true := by
  induction k generalizing acc data with
  | zero => exact ha
  | succ k ih =>
    rw [Nat.succ_mul] at hk
    refine ih (accShape_compress ha ?_) ?_
    · rw [List.length_take]; omega
    · rw [List.length_drop]; omega

theorem hashWf_iff (i : HashInst) :
    hashWf i = true ↔
      buffered i < blockSize i.desc ∧ i.count % blockSize i.desc = 0 ∧ accShape i.desc i.acc = true := by
  simp [hashWf, and_assoc]

/-- UPDATE keeps a hash engine well formed: `hashUpdate_eq` says what it buffers, counts and compresses (10_state R24,
R25). -/
theorem hashWf_hashUpdate {i : HashInst} (data : List Byte) (h : hashWf i = true) :
    hashWf (hashUpdate i data) = true := by
  rw [hashWf_iff] at h ⊢
  obtain ⟨hb, hc, ha⟩ := h
  rw [hashUpdate_desc]
  refine ⟨by simpa using buffered_hashUpdate_lt i data hb, ?_, ?_⟩
  · rw [hashUpdate_eq i data hb]
    simpa using hc
  · rw [hashUpdate_eq i data hb]
    refine accShape_compressBlocks _ ha ?_
    rw [List.length_append]
    exact Nat.div_mul_le_self _ _

/-- FINALIZE rewrites the accumulator and the phase only, by whole blocks of the tail (41_engine R126). -/
theorem hashWf_hashFinalized (p : Params) {i : HashInst} (h : hashWf i = true) : hashWf (hashFinalized p i) = true := by
  rw [hashWf_iff] at h ⊢
  obtain ⟨hb, hc, ha⟩ := h
  exact ⟨hb, hc, accShape_compressBlocks _ ha (Nat.div_mul_le_self _ _)⟩

/-! ### What a command leaves in its slot -/

theorem slotCached_of_lookup {cache : List (CrcParams × CrcTable)} (q : CrcParams) {v : Slot}
    (h : slotCached cache v = true) : slotCached (cacheLookup cache q).2 v = true := by
  cases v with
  | empty => rfl
  | hash i => rfl
  | crc c =>
    simp only [slotCached, beq_iff_eq] at h ⊢
    exact cacheFind_cacheLookup_some q h

theorem slotCached_effect {p : Params} {cache : List (CrcParams × CrcTable)} {i : Instr} {v w : Slot} {r : Effect}
    (hr : effect p cache i v = .ok r) (h : slotCached cache w = true) : slotCached r.2.2 w = true := by
  rcases effect_cache hr with hc | ⟨_, _, _, _, _, _, q, -, -, -, hc, -, -⟩ <;> rw [hc]
  · exact h
  · exact slotCached_of_lookup q h

/-- A CONSTRUCT that completes bound an empty slot (41_engine R120). -/
theorem constructEffect_ok {cache : List (CrcParams × CrcTable)} {desc : Except ErrorCode Alg} {v : Slot} {r : Effect}
    (h : constructEffect cache desc v = .ok r) :
    ∃ a, v = .empty ∧ desc = .ok a ∧ r = (.hash (hashInit a), [], cache) := by
  unfold constructEffect at h
  split at h <;> cases h
  exact ⟨_, rfl, rfl, rfl⟩

/-- A slot the invariant allows beside a cache: well formed, with its table cached. -/
def SlotOk (cache : List (CrcParams × CrcTable)) (v : Slot) : Prop := slotWf v = true ∧ slotCached cache v = true

section
variable {cache : List (CrcParams × CrcTable)}

theorem slotOk_hash {i : HashInst} : SlotOk cache (.hash i) ↔ hashWf i = true := by simp [SlotOk, slotWf, slotCached]

theorem slotOk_crcReset (p : Params) {c : CrcInst} (h : SlotOk cache (.crc c)) : SlotOk cache (.crc (crcReset p c)) :=
  ⟨crcWf_crcReset p h.1, h.2⟩

theorem slotOk_crcUpdate {c : CrcInst} (data : List Byte) (h : SlotOk cache (.crc c)) :
    SlotOk cache (.crc (crcUpdate c data)) :=
  ⟨crcWf_crcUpdate data h.1, h.2⟩

theorem slotOk_crcFinalized {c : CrcInst} (h : SlotOk cache (.crc c)) : SlotOk cache (.crc (crcFinalized c)) := h

theorem slotOk_empty : SlotOk cache .empty := ⟨rfl, rfl⟩

theorem slotOk_constructEffect {desc : Except ErrorCode Alg} {v : Slot} {r : Effect}
    (h : constructEffect cache desc v = .ok r) : SlotOk r.2.2 r.1 := by
  obtain ⟨a, -, -, rfl⟩ := constructEffect_ok h
  exact slotOk_hash.mpr (hashWf_hashInit a)

theorem slotOk_crcInit (p : Params) {q : CrcParams} (hc : cacheWf cache = true) (hq : crcParamsWf q = true) :
    SlotOk (cacheLookup cache q).2 (.crc (crcInit p q (cacheLookup cache q).1)) := by
  constructor
  · rw [cacheLookup_fst q hc]
    exact crcWf_crcInit p hq
  · exact beq_iff_eq.mpr (cacheFind_cacheLookup_same cache q)

/-- A completing command leaves in its slot what the invariant allows: each command has its case, which rests on one
lemma for each operation it runs. -/
theorem slotOk_effect {p : Params} {i : Instr} {v : Slot} {r : Effect} (hr : effect p cache i v = .ok r)
    (hc : cacheWf cache = true) (hv : SlotOk cache v) : SlotOk r.2.2 r.1 := by
  cases i with
  | crcConstruct slot order refl poly init xorout =>
    simp only [effect] at hr
    split at hr <;> cases hr
    next q hq => exact slotOk_crcInit p hc (crcParamsOf_ok hq).1
  | reset slot =>
    simp only [effect] at hr
    split at hr <;> cases hr
    next i => exact slotOk_hash.mpr (hashWf_hashInit i.desc)
    next c => exact slotOk_crcReset p hv
  | update slot data =>
    simp only [effect] at hr
    split at hr
    · cases hr
    · split at hr <;> cases hr
      exact slotOk_hash.mpr (hashWf_hashUpdate data (slotOk_hash.mp hv))
    · split at hr <;> cases hr
      exact slotOk_crcUpdate data hv
  | finalize slot =>
    simp only [effect] at hr
    split at hr
    · cases hr
    · split at hr <;> cases hr
      exact slotOk_hash.mpr (hashWf_hashFinalized p (slotOk_hash.mp hv))
    · split at hr <;> cases hr
      exact slotOk_crcFinalized hv
  | compute slot data =>
    simp only [effect] at hr
    split at hr <;> cases hr
    next i => exact slotOk_hash.mpr (hashWf_hashFinalized p (hashWf_hashUpdate data (hashWf_hashInit i.desc)))
    next c => exact slotOk_crcFinalized (slotOk_crcUpdate data (slotOk_crcReset p hv))
  | status slot => cases hr; exact hv
  | destroy slot =>
    simp only [effect] at hr
    split at hr <;> cases hr <;> exact slotOk_empty
  | _ => exact slotOk_constructEffect hr

end

/-! ### The invariant -/

/-- The invariant with its two clauses on the slots as one. -/
theorem inv_iff_slotOk (s : State) :
    s.inv = true ↔ 1 ≤ s.nSlots ∧ s.nSlots ≤ 256 ∧ (∀ v ∈ s.slots, SlotOk s.cache v) ∧ cacheWf s.cache = true ∧
      faultWf s = true := by
  simp only [inv_iff, SlotOk, forall₂_and, and_assoc]

/-- A completing command keeps the invariant: its own slot by `slotOk_effect`, the others because no table leaves the
cache. -/
theorem inv_done {s : State} {i : Instr} {r : Effect} (hf : s.fault = none) (hk : slotIndex i.slot < s.nSlots)
    (hr : effect s.params s.cache i (s.slotAt (slotIndex i.slot)) = .ok r) (h : s.inv = true) :
    (s.done i.slot r).inv = true := by
  rw [inv_iff_slotOk] at h ⊢
  obtain ⟨hlo, hhi, hslots, hcache, -⟩ := h
  rw [State.done_nSlots, State.done_slots, State.done_cache]
  refine ⟨hlo, hhi, fun v hv => ?_, ?_, by simp [faultWf, hf]⟩
  · rcases List.mem_or_eq_of_mem_set hv with hmem | rfl
    · exact (hslots v hmem).imp_right (slotCached_effect hr)
    · exact slotOk_effect hr hcache (hslots _ (s.slotAt_mem hk))
  · rw [effect_cacheAfter hr]
    exact cacheWf_cacheAfter i hcache

/-- No command breaks the invariant, whether it completes or raises an error. -/
theorem inv_exec {s t : State} {i : Instr} (h : s.inv = true) (he : exec i s = .next t) : t.inv = true := by
  rcases exec_cases i s with ⟨r, -, hx⟩ | ⟨-, e, hx⟩ | ⟨hf, hk, r, hr, hx⟩ <;> rw [hx] at he <;> cases he
  · exact inv_faulted s.commands e i.slot h
  · exact inv_done hf hk hr h

/-- The invariant does not read the command stream. -/
theorem inv_commands (s : State) (rest : List Byte) : ({ s with commands := rest } : State).inv = s.inv := rfl

/-- Settles O54: an error keeps the invariant by `inv_faulted`, a command by `inv_exec`. -/
theorem stepKeepsInvariant : Obligations.StepKeepsInvariant := by
  intro s t h hs
  rcases step_cases s with ⟨r, -, hx⟩ | ⟨-, -, hx⟩ | ⟨-, why, slot, rest, e, -, hx⟩ | ⟨-, i, rest, -, hx⟩ <;>
    rw [hx] at hs
  · cases hs
  · cases hs
  · cases hs
    exact inv_faulted rest e slot h
  · exact inv_exec ((inv_commands s rest).trans h) hs

end Sys2Proof.Machine
end

section
/-! PROOFS of the statements on the slots (20_memory R57, R64; 70_reset R451): where the engine stops, what a command leaves
alone, and that the commands to one slot do not see those to the others. -/

namespace Sys2Proof.Machine

open Sys2Proof.Claims

/-! ### The ends of a run -/

theorem completed_iff (s : State) : s.completed = true ↔ s.fault = none ∧ s.commands = [] := by
  simp [State.completed]

theorem starving_iff (s : State) :
    s.starving = true ↔ s.fault = none ∧ s.commands ≠ [] ∧ decode s.commands = .incomplete := by
  simp [State.starving, and_assoc]

theorem waitingFault_of_ne_nil {bs : List Byte} (h : bs ≠ []) : waitingFault bs = .starved := by
  cases bs with
  | nil => exact absurd rfl h
  | cons b bs => rfl

/-- Without the bytes of a whole command the engine waits (20_memory R57). -/
theorem step_incomplete {s : State} (hf : s.fault = none) (hd : decode s.commands = .incomplete) :
    step s = .fault (waitingFault s.commands) := by
  simp [step, fetch, hf, hd]

theorem exec_ne_fault {s : State} (i : Instr) (f : Fault) (hf : s.fault = none) : exec i s ≠ .fault f := by
  rcases exec_cases i s with ⟨r, hr, -⟩ | ⟨-, e, hx⟩ | ⟨-, -, r, -, hx⟩
  · simp [hf] at hr
  · simp [hx]
  · simp [hx]

/-- Settles O8: of the four cases of `step_cases` only a halted and a waiting engine have no step, and an engine waits for a
first byte or inside a command. -/
theorem engineStopsExactlyAtTheEnds : Obligations.EngineStopsExactlyAtTheEnds := by
  intro s f
  rw [completed_iff, starving_iff]
  constructor
  · intro h
    rcases step_cases s with ⟨r, hf, hx⟩ | ⟨hf, hd, hx⟩ | ⟨-, _, _, _, _, -, hx⟩ | ⟨hf, i, rest, -, hx⟩ <;> rw [hx] at h
    · cases h
      exact .inl ⟨r, hf, rfl⟩
    · cases h
      by_cases hc : s.commands = []
      · exact .inr (.inl ⟨⟨hf, hc⟩, by rw [hc]; rfl⟩)
      · exact .inr (.inr ⟨⟨hf, hc, hd⟩, waitingFault_of_ne_nil hc⟩)
    · cases h
    · exact absurd h (exec_ne_fault i f hf)
  · rintro (⟨r, hf, rfl⟩ | ⟨⟨hf, hc⟩, rfl⟩ | ⟨⟨hf, hc, hd⟩, rfl⟩)
    · exact step_halted hf
    · rw [step_incomplete hf (by rw [hc]; rfl), hc]; rfl
    · rw [step_incomplete hf hd, waitingFault_of_ne_nil hc]

/-! ### What a command leaves alone -/

theorem cacheAfter_of_ne_crcConstruct {i : Instr} (cache : List (CrcParams × CrcTable))
    (h : ∀ slot order refl poly init xorout, i ≠ .crcConstruct slot order refl poly init xorout) :
    cacheAfter i cache = cache := by
  cases i with
  | crcConstruct => exact absurd rfl (h _ _ _ _ _ _)
  | _ => rfl

/-- Settles O55: fault entry writes no slot and no cache, and a completing command only what `State.done` names. -/
theorem commandChangesOnlyItsSlot : Obligations.CommandChangesOnlyItsSlot := by
  intro s t i h
  rcases exec_cases i s with ⟨r, -, hx⟩ | ⟨-, e, hx⟩ | ⟨-, -, r, hr, hx⟩ <;> rw [hx] at h <;> cases h
  · exact ⟨fun _ _ => rfl, rfl, rfl, rfl, fun _ => rfl⟩
  · exact ⟨fun _ hj => s.done_slotAt_ne i.slot r hj, s.done_nSlots i.slot r, rfl, rfl, fun hi =>
      (effect_cacheAfter hr).trans (cacheAfter_of_ne_crcConstruct s.cache hi)⟩

/-! ### States that agree on a slot -/

/-- A completing command leaves a correct cache correct (10_state R29). -/
theorem cacheWf_done {s : State} {i : Instr} {r : Effect}
    (hr : effect s.params s.cache i (s.slotAt (slotIndex i.slot)) = .ok r) (hc : cacheWf s.cache = true) :
    cacheWf (s.done i.slot r).cache = true := by
  rw [State.done_cache, effect_cacheAfter hr]
  exact cacheWf_cacheAfter i hc

/-- Two states that no command to slot `k` tells apart: they agree on all such a command reads, and hold correct caches
(20_memory R64; 10_state R30). -/
structure AgreeOn (k : Nat) (s u : State) : Prop where
  fault_left : s.fault = none
  fault_right : u.fault = none
  params : u.params = s.params
  nSlots : u.nSlots = s.nSlots
  slotAt : u.slotAt k = s.slotAt k
  wf_left : cacheWf s.cache = true
  wf_right : cacheWf u.cache = true

namespace AgreeOn
variable {k : Nat} {s u : State} {i : Instr} {r : Effect}

theorem refl (k : Nat) (hf : s.fault = none) (hc : cacheWf s.cache = true) : AgreeOn k s s :=
  ⟨hf, hf, rfl, rfl, rfl, hc, hc⟩

theorem symm (h : AgreeOn k s u) : AgreeOn k u s :=
  ⟨h.fault_right, h.fault_left, h.params.symm, h.nSlots.symm, h.slotAt.symm, h.wf_right, h.wf_left⟩

/-- A command that completes on the first state completes on the second, with the same slot and payload. -/
theorem effect_eq (h : AgreeOn (slotIndex i.slot) s u)
    (hr : effect s.params s.cache i (s.slotAt (slotIndex i.slot)) = .ok r) :
    effect u.params u.cache i (u.slotAt (slotIndex i.slot)) = .ok (r.1, r.2.1, cacheAfter i u.cache) := by
  rw [h.params, h.slotAt]
  exact effect_other_cache h.wf_left h.wf_right hr

theorem exec_eq (h : AgreeOn (slotIndex i.slot) s u) (hk : slotIndex i.slot < s.nSlots)
    (hr : effect s.params s.cache i (s.slotAt (slotIndex i.slot)) = .ok r) :
    exec i u = .next (u.done i.slot (r.1, r.2.1, cacheAfter i u.cache)) := by
  rw [exec_ready i h.fault_right (h.nSlots ▸ hk), h.effect_eq hr, answer]

/-- A completed command to another slot is not seen. -/
theorem done_left_of_ne (h : AgreeOn k s u) (hne : k ≠ slotIndex i.slot)
    (hr : effect s.params s.cache i (s.slotAt (slotIndex i.slot)) = .ok r) : AgreeOn k (s.done i.slot r) u where
  fault_left := h.fault_left
  fault_right := h.fault_right
  params := h.params
  nSlots := h.nSlots.trans (s.done_nSlots i.slot r).symm
  slotAt := h.slotAt.trans (s.done_slotAt_ne i.slot r hne).symm
  wf_left := cacheWf_done hr h.wf_left
  wf_right := h.wf_right

/-- A completed command to the slot itself keeps the agreement. -/
theorem done_done (h : AgreeOn (slotIndex i.slot) s u) (hk : slotIndex i.slot < s.nSlots)
    (hr : effect s.params s.cache i (s.slotAt (slotIndex i.slot)) = .ok r) :
    AgreeOn (slotIndex i.slot) (s.done i.slot r) (u.done i.slot (r.1, r.2.1, cacheAfter i u.cache)) where
  fault_left := h.fault_left
  fault_right := h.fault_right
  params := h.params
  nSlots := by rw [State.done_nSlots, State.done_nSlots, h.nSlots]
  slotAt := by rw [State.done_slotAt_same _ _ _ (h.nSlots ▸ hk), State.done_slotAt_same _ _ _ hk]
  wf_left := cacheWf_done hr h.wf_left
  wf_right := cacheWf_cacheAfter i h.wf_right

end AgreeOn

/-! ### Commands to distinct slots commute -/

/-- Settles O57: neither command sees the other (`AgreeOn.exec_eq`), so each has its effect in either order; two slots are
written in either order, and the cache has one canonical form. -/
theorem commandsToDistinctSlotsCommute : Obligations.CommandsToDistinctSlotsCommute := by
  intro s a t i j hc hne hi ha hj ht
  obtain ⟨hf, hki, r, hr, rfl⟩ := exec_completed hi ha
  obtain ⟨-, hkj, q, hq, rfl⟩ := exec_completed hj ht
  rw [State.done_nSlots] at hkj
  have hs : AgreeOn (slotIndex j.slot) (s.done i.slot r) s := (AgreeOn.refl _ hf hc).done_left_of_ne hne.symm hr
  have hb : AgreeOn (slotIndex i.slot) s (s.done j.slot (q.1, q.2.1, cacheAfter j s.cache)) :=
    ((AgreeOn.refl _ hf hc).done_left_of_ne hne (hs.effect_eq hq)).symm
  refine ⟨_, _, hs.exec_eq (by rwa [State.done_nSlots]) hq, hf, hb.exec_eq hki hr, hf, ?_, ?_, rfl⟩
  · exact List.set_comm _ _ hne.symm
  · calc cacheAfter i (cacheAfter j s.cache) = cacheAfter j (cacheAfter i s.cache) := cacheAfter_comm ..
      _ = cacheAfter j r.2.2 := by rw [effect_cacheAfter hr]
      _ = q.2.2 := (effect_cacheAfter hq).symm

/-! ### A slot depends only on the commands sent to it -/

theorem slotIndex_injective : Function.Injective slotIndex := fun _ _ => BitVec.eq_of_toNat_eq

theorem runLog_cons {i : Instr} {rest : List Instr} {s t : State} {log : List (Byte × List Byte)} :
    runLog (i :: rest) s = some (t, log) ↔
      ∃ a tail, exec i s = .next a ∧ runLog rest a = some (t, tail) ∧
        log = (i.slot, a.responses.drop s.responses.length) :: tail := by
  rw [runLog]
  cases exec i s with
  | next a =>
    cases hrun : runLog rest a with
    | none => simp [hrun]
    | some out => simp [hrun, Prod.ext_iff, eq_comm]
  | fault f => simp
  | refused r => simp

/-- The response bytes the log lists for a completed command. -/
theorem State.done_drop_responses (s : State) (slot : Byte) (r : Effect) :
    (s.done slot r).responses.drop s.responses.length = 0x00 :: r.2.1 := List.drop_left ..

/-- A run that ends without a fault began without one. -/
theorem runLog_fault_none {commands : List Instr} {s t : State} {log : List (Byte × List Byte)}
    (h : runLog commands s = some (t, log)) (ht : t.fault = none) : s.fault = none := by
  cases commands with
  | nil => cases h; exact ht
  | cons i rest =>
    obtain ⟨a, -, hx, -, -⟩ := runLog_cons.mp h
    cases hf : s.fault with
    | none => rfl
    | some r => rw [exec_halted i hf] at hx; cases hx

/-- The first command of a run that completes has completed. -/
theorem runLog_cons_completed {i : Instr} {rest : List Instr} {s t : State} {log : List (Byte × List Byte)}
    (h : runLog (i :: rest) s = some (t, log)) (ht : t.fault = none) :
    slotIndex i.slot < s.nSlots ∧ ∃ r tail, effect s.params s.cache i (s.slotAt (slotIndex i.slot)) = .ok r ∧
      runLog rest (s.done i.slot r) = some (t, tail) ∧ log = (i.slot, 0x00 :: r.2.1) :: tail := by
  obtain ⟨a, tail, hx, hrun, rfl⟩ := runLog_cons.mp h
  obtain ⟨-, hk, r, hr, rfl⟩ := exec_completed hx (runLog_fault_none hrun ht)
  exact ⟨hk, r, tail, hr, hrun, by rw [State.done_drop_responses]⟩

/-- A completed run, and the run of its commands to one slot from a state that agrees on that slot, end in states that agree
on it. -/
theorem runLog_filter_of_agreeOn {commands : List Instr} {slot : Byte} {s t u : State} {log : List (Byte × List Byte)}
    (h : AgreeOn (slotIndex slot) s u) (hrun : runLog commands s = some (t, log)) (ht : t.fault = none) :
    ∃ v, runLog (commands.filter fun i => i.slot == slot) u = some (v, log.filter fun e => e.1 == slot) ∧
      AgreeOn (slotIndex slot) t v := by
  induction commands generalizing s u log with
  | nil => cases hrun; exact ⟨u, rfl, h⟩
  | cons i rest ih =>
    obtain ⟨hk, r, tail, hr, hrest, rfl⟩ := runLog_cons_completed hrun ht
    by_cases hi : i.slot = slot
    · subst hi
      obtain ⟨v, hv, hagree⟩ := ih (h.done_done hk hr) hrest
      rw [List.filter_cons_of_pos (by simp), List.filter_cons_of_pos (by simp)]
      exact ⟨v, runLog_cons.mpr ⟨_, _, h.exec_eq hk hr, hv, by rw [State.done_drop_responses]⟩, hagree⟩
    · rw [List.filter_cons_of_neg (by simpa using hi), List.filter_cons_of_neg (by simpa using hi)]
      exact ih (h.done_left_of_ne (slotIndex_injective.ne (Ne.symm hi)) hr) hrest

/-- Settles O56: the two runs begin in one state, and `runLog_filter_of_agreeOn` keeps them in agreement on the slot. -/
theorem slotIgnoresOtherSlotsCommands : Obligations.SlotIgnoresOtherSlotsCommands := by
  intro commands s t log slot hc hrun ht
  obtain ⟨u, hu, h⟩ := runLog_filter_of_agreeOn (.refl (slotIndex slot) (runLog_fault_none hrun ht) hc) hrun ht
  exact ⟨u, hu, h.fault_right, h.slotAt⟩

end Sys2Proof.Machine
end

section
/-! PROOFS of the statements on the encoding (30_encoding R70 to R89): decoding and encoding undo each other, and the
bytes that are no command are rejected with exactly their own bytes consumed. -/

namespace Sys2Proof

open Machine Claims

/-! ### What the decoder reads from operand bytes -/

/-- CRC_CONSTRUCT on its three operands: only the reserved fields decide (30_encoding R76, R79). -/
theorem decodeCrcConstruct_operands (h : Header) (poly init xorout : Word64) (rest : List Byte) :
    decodeCrcConstruct h (beBytes poly ++ (beBytes init ++ (beBytes xorout ++ rest))) =
      if h.b = 0 ∧ h.c.toNat ≤ 1 then .command (.crcConstruct h.slot h.a (h.c == 1) poly init xorout) rest
      else .rejected .reservedField h.slot rest := by
  simp only [decodeCrcConstruct, take64_beBytes]

/-- UPDATE or COMPUTE on LEN and DATA: only the reserved fields decide (30_encoding R81). -/
theorem decodeData_dataBytes (h : Header) (make : List Byte → Instr) {data : List Byte} (rest : List Byte)
    (hd : dataFits data = true) : decodeData h make (dataBytes data ++ rest) = decodePlain h (make data) rest := by
  simp only [decodeData, takeData_dataBytes data rest hd]

/-! ### Decoding an encoding -/

/-- Settles O1: the header comes back by `decode_headerBytes`, which settles the commands of one word; the operands come
back by `decodeCrcConstruct_operands` and `decodeData_dataBytes`. -/
theorem decodeOfEncodeIsTheCommand : Obligations.DecodeOfEncodeIsTheCommand := by
  intro i rest hwf
  cases i with
  | crcConstruct slot order reflect poly init xorout =>
    simp only [encode, List.append_assoc, decode_headerBytes]
    refine (decodeCrcConstruct_operands _ poly init xorout rest).trans ?_
    cases reflect <;> rfl
  | update slot data =>
    rw [encode, List.append_assoc, plainBytes, decode_headerBytes]
    exact decodeData_dataBytes _ _ rest hwf
  | compute slot data =>
    rw [encode, List.append_assoc, plainBytes, decode_headerBytes]
    exact decodeData_dataBytes _ _ rest hwf
  | _ => exact decode_headerBytes _ rest

/-! ### Encoding what was decoded -/

/-- The bytes are those of a well-formed command with `rest` after them (30_encoding R81). -/
def Encodes (bs : List Byte) (i : Instr) (rest : List Byte) : Prop := bs = encode i ++ rest ∧ i.wellFormed = true

/-- Each algorithm id names one row (30_encoding R77). -/
theorem encodes_of_decodeConstruct {h : Header} {bs rest : List Byte} {i : Instr} (hopc : h.opc.toNat = 0x01)
    (hd : decodeConstruct h bs = .command i rest) : Encodes (headerBytes h ++ bs) i rest := by
  obtain ⟨opc, slot, a, b, c⟩ := h
  cases byte_eq_of_toNat hopc
  unfold decodeConstruct at hd
  split at hd <;> cases hd <;> next ha => cases byte_eq_of_toNat ha; exact ⟨rfl, rfl⟩

/-- Of C only the bit that holds `reflect` may be set (30_encoding R76, R79). -/
theorem reflectNibble_of_le_one : ∀ c : Nibble, c.toNat ≤ 1 → (if c == 1 then 1 else 0 : Nibble) = c := by decide

theorem encodes_of_decodeCrcConstruct {h : Header} {bs rest : List Byte} {i : Instr} (hopc : h.opc.toNat = 0x02)
    (hd : decodeCrcConstruct h bs = .command i rest) : Encodes (headerBytes h ++ bs) i rest := by
  obtain ⟨opc, slot, a, b, c⟩ := h
  cases byte_eq_of_toNat hopc
  unfold decodeCrcConstruct at hd
  split at hd
  · cases hd
  next poly bs1 hpoly =>
  split at hd
  · cases hd
  next init bs2 hinit =>
  split at hd
  · cases hd
  next xorout bs3 hxorout =>
  split at hd <;> cases hd
  next hlegal =>
  obtain ⟨rfl, hc⟩ := hlegal
  rw [take64_eq_some hpoly, take64_eq_some hinit, take64_eq_some hxorout]
  exact ⟨by simp only [encode, reflectNibble_of_le_one c hc, List.append_assoc]; rfl, rfl⟩

/-- A header whose reserved fields are 0 is the one its opcode and slot give (30_encoding R76). -/
theorem headerBytes_of_decodePlain {h : Header} {i j : Instr} {bs rest : List Byte}
    (hd : decodePlain h i bs = .command j rest) : headerBytes h = plainBytes h.opc h.slot := by
  obtain ⟨-, -, ha, hb, hc⟩ := decodePlain_command hd
  simp only [headerBytes, plainBytes, ha, hb, hc]

/-- A command of one word whose encoding is the header its opcode and slot give. -/
theorem encodes_of_decodePlain {h : Header} {n : Nat} {bs rest : List Byte} {i j : Instr} (hopc : h.opc.toNat = n)
    (henc : encode i = plainBytes (BitVec.ofNat 8 n) h.slot) (hwf : i.wellFormed = true)
    (hd : decodePlain h i bs = .command j rest) : Encodes (headerBytes h ++ bs) j rest := by
  obtain ⟨rfl, rfl, -⟩ := decodePlain_command hd
  exact ⟨by rw [henc, headerBytes_of_decodePlain hd, byte_eq_of_toNat hopc], hwf⟩

/-- A command of one word and data. -/
theorem encodes_of_decodeData {h : Header} {n : Nat} {make : List Byte → Instr} {bs rest : List Byte} {i : Instr}
    (hopc : h.opc.toNat = n)
    (henc : ∀ data, encode (make data) = plainBytes (BitVec.ofNat 8 n) h.slot ++ dataBytes data)
    (hwf : ∀ data, (make data).wellFormed = dataFits data)
    (hd : decodeData h make bs = .command i rest) : Encodes (headerBytes h ++ bs) i rest := by
  unfold decodeData at hd
  split at hd
  · cases hd
  next data bs1 htake =>
  obtain ⟨rfl, hfits⟩ := takeData_eq_some htake
  obtain ⟨rfl, rfl, -⟩ := decodePlain_command hd
  exact ⟨by rw [henc, headerBytes_of_decodePlain hd, byte_eq_of_toNat hopc, List.append_assoc], (hwf data).trans hfits⟩

/-- Each opcode has its own form (30_encoding R73). -/
theorem encodes_of_decodeBody {h : Header} {bs rest : List Byte} {i : Instr} (hd : decodeBody h bs = .command i rest) :
    Encodes (headerBytes h ++ bs) i rest := by
  unfold decodeBody at hd
  split at hd
  · next hopc => exact encodes_of_decodeConstruct hopc hd
  · next hopc => exact encodes_of_decodeCrcConstruct hopc hd
  · next hopc => exact encodes_of_decodePlain hopc rfl rfl hd
  · next hopc => exact encodes_of_decodeData hopc (fun _ => rfl) (fun _ => rfl) hd
  · next hopc => exact encodes_of_decodePlain hopc rfl rfl hd
  · next hopc => exact encodes_of_decodeData hopc (fun _ => rfl) (fun _ => rfl) hd
  · next hopc => exact encodes_of_decodePlain hopc rfl rfl hd
  · next hopc => exact encodes_of_decodePlain hopc rfl rfl hd
  · cases hd

/-- A command's encoding has the length R83 gives it. -/
theorem encode_length (i : Instr) : (encode i).length = commandLength i := by
  cases i with
  | crcConstruct => exact Laws.EncodeLength.crcConstruct ..
  | update => exact Laws.EncodeLength.update ..
  | compute => exact Laws.EncodeLength.compute ..
  | _ => rfl

/-- Settles O2: bytes that decode begin with a header, and `encodes_of_decodeBody` goes through its opcodes. -/
theorem decodedBytesAreTheEncoding : Obligations.DecodedBytesAreTheEncoding := by
  intro bs rest i hd
  obtain ⟨h, ops, rfl, hbody⟩ := decode_eq_decodeBody (bs := bs) (by rw [hd]; nofun)
  obtain ⟨henc, hwf⟩ := encodes_of_decodeBody (hbody ▸ hd)
  exact ⟨henc, hwf, by rw [henc, List.length_append, encode_length]⟩

/-- Settles O3: each worked byte sequence is the encoding of its command, so O1 reads the command back. -/
theorem workedEncodingsDecode : Obligations.WorkedEncodingsDecode :=
  ⟨decodeOfEncodeIsTheCommand (.constructMd5 0 0 0) [] rfl, decodeOfEncodeIsTheCommand (.constructHaval 2 5 8) [] rfl,
    decodeOfEncodeIsTheCommand (.crcConstruct 1 32 true 0x04C11DB7 0xFFFFFFFF 0xFFFFFFFF) [] rfl,
    decodeOfEncodeIsTheCommand (.update 0 [0x61, 0x62, 0x63]) [] rfl, decodeOfEncodeIsTheCommand (.finalize 0) [] rfl,
    decodeOfEncodeIsTheCommand (.status 3) [] rfl⟩

/-! ### Bytes that are no command -/

/-- An opcode outside the table is rejected from its header alone (30_encoding R82). -/
theorem decodeBody_illegalOpcode {h : Header} (bs : List Byte)
    (hopc : h.opc ∉ ([0x01, 0x02, 0x03, 0x04, 0x05, 0x06, 0x07, 0x08] : List Byte)) :
    decodeBody h bs = .rejected .illegalOpcode h.slot bs := by
  unfold decodeBody
  split
  case h_9 => rfl
  all_goals next hn => simp [byte_eq_of_toNat hn] at hopc

/-- Any 8 bytes are a 64-bit operand (30_encoding R72). -/
theorem exists_beBytes {bs : List Byte} (h : bs.length = 8) : ∃ x : Word64, bs = beBytes x :=
  ⟨_, (beBytes_ofNat_beNat (by decide) bs h).symm⟩

/-- Any 24 bytes are the operands of a CRC_CONSTRUCT (30_encoding R72). -/
theorem exists_crcOperands {ops : List Byte} (h : ops.length = 24) :
    ∃ poly init xorout : Word64, ops = beBytes poly ++ beBytes init ++ beBytes xorout := by
  obtain ⟨poly, hpoly⟩ := exists_beBytes (bs := ops.take 8) (by simp [h])
  obtain ⟨init, hinit⟩ := exists_beBytes (bs := (ops.drop 8).take 8) (by simp [h])
  obtain ⟨xorout, hxorout⟩ := exists_beBytes (bs := (ops.drop 8).drop 8) (by simp [h])
  exact ⟨poly, init, xorout, by
    rw [← hpoly, ← hinit, ← hxorout, List.append_assoc, List.take_append_drop, List.take_append_drop]⟩

/-- Four bytes and as many as they say are LEN and DATA, and DATA fits (30_encoding R72, R80). -/
theorem dataBytes_of_length_eq {len data : List Byte} (hlen : len.length = 4) (hdata : data.length = beNat len) :
    len ++ data = dataBytes data ∧ dataFits data = true := by
  have htake : takeData (len ++ data) = some (data, []) := by
    have h4 : takeBytes 4 (len ++ data) = some (len, data) := takeBytes_eq_some.mpr ⟨rfl, hlen⟩
    have hd : takeBytes (beNat len) data = some (data, []) := takeBytes_eq_some.mpr ⟨by simp, hdata⟩
    simp [takeData, h4, hd]
  simpa using takeData_eq_some htake

theorem decodePlain_reserved {h : Header} (i : Instr) (rest : List Byte) (hr : ¬(h.a = 0 ∧ h.b = 0 ∧ h.c = 0)) :
    decodePlain h i rest = .rejected .reservedField h.slot rest := if_neg (by simpa [plainFields] using hr)

/-- But for CRC_CONSTRUCT, A, B and C are reserved (30_encoding R76). -/
theorem reservedBroken_of_ne {opc a : Byte} {b c : Nibble} (hopc : opc ≠ 0x02) (hr : reservedBroken opc a b c) :
    ¬(a = 0 ∧ b = 0 ∧ c = 0) := by
  rcases hr with ⟨-, hbroken⟩ | ⟨hcrc, -⟩
  · exact hbroken
  · exact absurd hcrc hopc

/-- Of a CRC_CONSTRUCT, B and C[3:1] are reserved (30_encoding R76). -/
theorem reservedBroken_crcConstruct {a : Byte} {b c : Nibble} (hr : reservedBroken 0x02 a b c) :
    ¬(b = 0 ∧ c.toNat ≤ 1) := by
  rcases hr with ⟨hmem, -⟩ | ⟨-, hbroken⟩
  · exact absurd hmem (by decide)
  · exact hbroken

/-- A broken reserved field is rejected with the whole command taken, whatever its form (30_encoding R81, R82). -/
theorem decodeBody_reservedField {h : Header} {ops : List Byte} (rest : List Byte)
    (hr : reservedBroken h.opc h.a h.b h.c) (hops : operandsOf h.opc ops) :
    decodeBody h (ops ++ rest) = .rejected .reservedField h.slot rest := by
  obtain ⟨opc, slot, a, b, c⟩ := h
  dsimp only at hr hops
  rcases hops with ⟨hopc, rfl⟩ | ⟨rfl, hlen⟩ | ⟨hopc, len, data, rfl, hlen, hdata⟩
  · simp only [List.mem_cons, List.not_mem_nil, or_false] at hopc
    rcases hopc with rfl | rfl | rfl | rfl <;>
      exact decodePlain_reserved _ rest (reservedBroken_of_ne (by decide) hr)
  · obtain ⟨poly, init, xorout, rfl⟩ := exists_crcOperands hlen
    rw [List.append_assoc, List.append_assoc]
    exact (decodeCrcConstruct_operands _ poly init xorout rest).trans (if_neg (reservedBroken_crcConstruct hr))
  · obtain ⟨heq, hfits⟩ := dataBytes_of_length_eq hlen hdata
    rw [heq]
    simp only [List.mem_cons, List.not_mem_nil, or_false] at hopc
    rcases hopc with rfl | rfl <;>
      exact (decodeData_dataBytes _ _ rest hfits).trans
        (decodePlain_reserved _ rest (reservedBroken_of_ne (by decide) hr))

/-- A CONSTRUCT whose A is no algorithm id (30_encoding R77). -/
theorem decodeConstruct_unknown {h : Header} (bs : List Byte) (ha : h.a = 0x00 ∨ 0x0C ≤ h.a.toNat) :
    decodeConstruct h bs = .rejected .unknownAlgorithm h.slot bs := by
  have hn : h.a.toNat = 0 ∨ 12 ≤ h.a.toNat := ha.imp_left (congrArg BitVec.toNat)
  unfold decodeConstruct
  split
  case h_12 => rfl
  all_goals omega

end Sys2Proof
end

section
/-! PROOFS of the statements on what the engine does with the bytes it decodes (30_encoding R74 to R86): the step, the
errors of the words that are no command, HAVAL's parameters, the slot's range and the one response. -/

namespace Sys2Proof.Machine

open Sys2Proof.Claims

/-! ### The step -/

/-- Settles O6: the fetch consumes exactly the command's bytes. -/
theorem stepRunsDecodedCommand : Obligations.StepRunsDecodedCommand := by
  intro s i rest hf hd
  simp only [step, fetch, hf, hd]

/-- Bytes that are no command are consumed, and raise their error. -/
theorem step_rejected {s : State} {why : Reject} {slot : Byte} {rest : List Byte} (hf : s.fault = none)
    (hd : decode s.commands = .rejected why slot rest) :
    step s = rejectCommand why slot { s with commands := rest } := by
  simp only [step, fetch, hf, hd]

/-! ### Errors -/

/-- Fault entry writes the fault record and one response byte, and nothing else (60_exceptions R404). -/
theorem raises_of_eq_raise {s : State} {slot : Byte} {e : ErrorCode} {o : StepOutcome} (h : o = raise s e slot) :
    Raises s slot e o :=
  ⟨_, h, rfl, rfl, rfl, rfl, rfl, rfl, rfl⟩

/-- A command without an effect on the slot it names raises its error, on a ready device. -/
theorem raises_of_effect {s : State} {i : Instr} {e : ErrorCode} (h : Ready s i.slot)
    (hr : effect s.params s.cache i (s.slotAt (slotIndex i.slot)) = .error e) : Raises s i.slot e (exec i s) :=
  raises_of_eq_raise ((exec_ready i h.1 h.2).trans (congrArg (answer s i.slot) hr))

/-- Settles O4: the decoder rejects both kinds of words, each with its own bytes taken. -/
theorem illegalWordsRaiseIllegalCommand : Obligations.IllegalWordsRaiseIllegalCommand := by
  intro s opc slot a b c ops rest hf
  refine ⟨fun hopc hs => ?_, fun hr hops hs => ?_⟩
  · have hd : decode s.commands = .rejected .illegalOpcode slot rest := by
      rw [hs]
      exact (decode_headerBytes ⟨opc, slot, a, b, c⟩ rest).trans (decodeBody_illegalOpcode rest hopc)
    exact raises_of_eq_raise (step_rejected hf hd)
  · have hd : decode s.commands = .rejected .reservedField slot rest := by
      rw [hs, List.append_assoc]
      exact (decode_headerBytes ⟨opc, slot, a, b, c⟩ (ops ++ rest)).trans (decodeBody_reservedField rest hr hops)
    exact raises_of_eq_raise (step_rejected hf hd)

/-- A construction on a slot number out of range raises BAD_SLOT. -/
theorem onEmptySlot_bad {s : State} {slot : Byte} (rule : StepOutcome) (hf : s.fault = none)
    (h : s.nSlots ≤ slotIndex slot) : onEmptySlot s slot rule = raise s .badSlot slot := onSlot_bad _ hf h

/-- Settles O5: the decoder takes the header, and `onEmptySlot` checks the slot before the algorithm id. -/
theorem unknownAlgorithmRaisesConfigAlg : Obligations.UnknownAlgorithmRaisesConfigAlg := by
  intro s slot a b c rest hf ha hs
  have hd : decode s.commands = .rejected .unknownAlgorithm slot rest := by
    rw [hs]
    exact (decode_headerBytes ⟨0x01, slot, a, b, c⟩ rest).trans (decodeConstruct_unknown rest ha)
  rw [step_rejected hf hd]
  refine ⟨fun hk he => ?_, fun hk he => ?_, fun hk => ?_⟩
  · exact raises_of_eq_raise (onEmptySlot_empty (s := { s with commands := rest }) _ hf hk he)
  · exact raises_of_eq_raise (onEmptySlot_busy (s := { s with commands := rest }) _ hf hk he)
  · exact raises_of_eq_raise (onEmptySlot_bad (s := { s with commands := rest }) _ hf hk)

/-- Settles O17: every command begins with the check of its slot number, which has 8 bits. -/
theorem slotOutOfRangeRaisesBadSlot : Obligations.SlotOutOfRangeRaisesBadSlot := by
  refine fun s i => ⟨fun hf hk => ?_, fun h256 => ?_⟩
  · exact raises_of_eq_raise (exec_bad i hf hk)
  · rw [h256]
    exact i.slot.isLt

/-! ### The parameters of HAVAL -/

/-- B is a pass count exactly from 3 to 5 (30_encoding R78). -/
theorem havalPassesOf_of_legal {b : Nibble} (h : 3 ≤ b.toNat ∧ b.toNat ≤ 5) :
    ∃ passes, havalPassesOf b = some passes ∧ havalPassCount passes = b.toNat := by
  revert b; decide

theorem havalPassesOf_of_illegal {b : Nibble} (h : ¬(3 ≤ b.toNat ∧ b.toNat ≤ 5)) : havalPassesOf b = none := by
  revert b; decide

/-- C codes a length exactly from 4 to 8 (30_encoding R78). -/
theorem havalLenOf_of_legal {c : Nibble} (h : 4 ≤ c.toNat ∧ c.toNat ≤ 8) :
    ∃ hlen, havalLenOf c = some hlen ∧ havalBits hlen = 32 * c.toNat := by
  revert c; decide

theorem havalLenOf_of_illegal {c : Nibble} (h : ¬(4 ≤ c.toNat ∧ c.toNat ≤ 8)) : havalLenOf c = none := by
  revert c; decide

/-- One parameter that is not legal makes the pair no descriptor key. -/
theorem havalDesc_of_illegal {b c : Nibble}
    (h : ¬((3 ≤ b.toNat ∧ b.toNat ≤ 5) ∧ (4 ≤ c.toNat ∧ c.toNat ≤ 8))) : havalDesc b c = .error .configHaval := by
  unfold havalDesc
  rcases not_and_or.mp h with hb | hc
  · rw [havalPassesOf_of_illegal hb]
  · rw [havalLenOf_of_illegal hc]
    cases havalPassesOf b <;> rfl

/-- Settles O12: legal parameters are read as the pass count and the length, and CONSTRUCT binds the empty slot. -/
theorem constructHavalBindsPassesAndLength : Obligations.ConstructHavalBindsPassesAndLength := by
  intro s slot b c h he hb3 hb5 hc4 hc8
  obtain ⟨passes, hp, hcount⟩ := havalPassesOf_of_legal ⟨hb3, hb5⟩
  obtain ⟨hlen, hl, hbits⟩ := havalLenOf_of_legal ⟨hc4, hc8⟩
  have hdesc : havalDesc b c = .ok (.haval passes hlen) := by rw [havalDesc, hp, hl]
  refine ⟨passes, hlen, hcount, hbits, completes_of_effect (i := .constructHaval slot b c)
    (r := (.hash (hashInit (.haval passes hlen)), [], s.cache)) h ?_⟩
  rw [effect, Instr.slot, he, hdesc, constructEffect]

/-- Settles O15: the empty slot passes the slot's check, and the parameters fail their own. -/
theorem badHavalParametersRaiseConfigHaval : Obligations.BadHavalParametersRaiseConfigHaval := by
  intro s slot b c h he hbad
  refine raises_of_effect (i := .constructHaval slot b c) h ?_
  rw [effect, Instr.slot, he, havalDesc_of_illegal hbad, constructEffect]

/-! ### The response -/

/-- The digest of a well-formed hash engine (42_padding R159). -/
theorem hashDigest_length (p : Params) {i : HashInst} (h : hashWf i = true) :
    (hashDigest p i).length = (descriptor Params.spec i.desc).digestBits / 8 := by
  obtain ⟨-, -, ha⟩ := (hashWf_iff _).mp (hashWf_hashFinalized p h)
  exact output_length p ha

theorem crcResult_length (c : CrcInst) : (crcResult c).length = orderBits c.params.order / 8 := beBytesOf_length _ _

/-- Neither kind of construction has a payload. -/
theorem constructEffect_payload {cache : List (CrcParams × CrcTable)} {desc : Except ErrorCode Alg} {v : Slot}
    {r : Effect} (h : constructEffect cache desc v = .ok r) : r.2.1.length = 0 := by
  obtain ⟨a, -, -, rfl⟩ := constructEffect_ok h
  rfl

/-- The payload of a completing command has the length R84 gives it: FINALIZE and COMPUTE answer the result of the
engine in the slot, STATUS one word. -/
theorem effect_payload_length {s : State} {i : Instr} {r : Effect} (hv : slotWf (s.slotAt (slotIndex i.slot)) = true)
    (hr : effect s.params s.cache i (s.slotAt (slotIndex i.slot)) = .ok r) : r.2.1.length = payloadLength i s := by
  cases i with
  | crcConstruct slot order refl poly init xorout =>
    simp only [effect] at hr
    split at hr <;> cases hr
    rfl
  | reset slot =>
    simp only [effect] at hr
    split at hr <;> cases hr <;> rfl
  | update slot data =>
    simp only [effect] at hr
    split at hr
    · cases hr
    · split at hr <;> cases hr
      rfl
    · split at hr <;> cases hr
      rfl
  | finalize slot =>
    simp only [effect, Instr.slot] at hr hv
    simp only [payloadLength]
    split at hr
    · cases hr
    · next i hslot =>
      rw [hslot] at hv ⊢
      split at hr <;> cases hr
      exact hashDigest_length s.params hv
    · next c hslot =>
      rw [hslot]
      split at hr <;> cases hr
      exact crcResult_length c
  | compute slot data =>
    simp only [effect, Instr.slot] at hr
    simp only [payloadLength]
    split at hr <;> cases hr
    · next i hslot =>
      rw [hslot]
      have h := hashDigest_length s.params (hashWf_hashUpdate data (hashWf_hashInit i.desc))
      rwa [hashUpdate_desc] at h
    · next c hslot =>
      rw [hslot]
      exact crcResult_length _
  | status slot => cases hr; exact beBytes_length _
  | destroy slot =>
    simp only [effect] at hr
    split at hr <;> cases hr <;> rfl
  | _ => exact constructEffect_payload hr

/-- Settles O60: an error answers its one byte, and a completing command 0x00 and the payload of
`effect_payload_length`. -/
theorem eachCommandAppendsOneResponse : Obligations.EachCommandAppendsOneResponse := by
  intro s i hinv hf
  rcases exec_cases i s with ⟨r, hr, -⟩ | ⟨-, e, hx⟩ | ⟨-, hk, r, hr, hx⟩
  · simp [hf] at hr
  · exact ⟨_, hx, .inr ⟨_, rfl, errorByte_ne_zero e, rfl⟩⟩
  · obtain ⟨-, -, hslots, -⟩ := (inv_iff s).mp hinv
    exact ⟨_, hx, .inl ⟨hf, r.2.1, rfl, effect_payload_length (hslots _ (s.slotAt_mem hk)) hr⟩⟩

end Sys2Proof.Machine
end

section
/-! PROOFS of the statements on the conversion layer (40_conversion R101 to R108): words and bytes, rotation, bit reversal
and masks. -/

namespace Sys2Proof.Machine

open Sys2Proof.Claims

/-! ### Words and bytes -/

section
variable {w : Nat} {read : List Byte → Nat} {write : BitVec w → List Byte}

/-- Assembly undoes serialisation, in any byte order: a word's bytes are one piece, which reads back as the word. -/
theorem assemble_flatMap (hw : 0 < w / 8) (hlen : ∀ x, (write x).length = w / 8)
    (hread : ∀ x, BitVec.ofNat w (read (write x)) = x) (xs : List (BitVec w)) :
    assemble read w (xs.flatMap write) = some xs := by
  have hbytes : (xs.flatMap write).length = xs.length * (w / 8) := by simp [List.length_flatMap, hlen]
  rw [assemble, hbytes, if_pos (Nat.mul_mod_left ..), Nat.mul_div_cancel _ hw, pieces_flatMap write _ hlen]
  simp [Function.comp_def, hread]

/-- Serialisation undoes assembly, in any byte order: each piece has `w/8` bytes, which its word writes back. -/
theorem flatMap_assemble (hwrite : ∀ p : List Byte, p.length = w / 8 → write (BitVec.ofNat w (read p)) = p)
    {bs : List Byte} (h : bs.length % (w / 8) = 0) : ∃ ws, assemble read w bs = some ws ∧ ws.flatMap write = bs := by
  have hlen : bs.length = w / 8 * (bs.length / (w / 8)) := (Nat.mul_div_cancel' (Nat.dvd_of_mod_eq_zero h)).symm
  refine ⟨_, if_pos h, ?_⟩
  rw [List.flatMap_map, List.flatMap_def,
    List.map_congr_left fun p hp => hwrite p (pieces_length_of_mem _ _ _ hlen.ge p hp), List.map_id',
    pieces_flatten _ _ _ hlen]

end

/-! ### Rotation -/

/-- A left rotation carries bit `i` to bit `(i + n) mod w` (40_conversion R104). -/
theorem getLsbD_rotl_add_mod {w : Nat} (x : BitVec w) (n : Nat) {i : Nat} (hi : i < w) :
    (rotl x n).getLsbD ((i + n) % w) = x.getLsbD i := by
  have hk : n % w < w := Nat.mod_lt _ (by omega)
  rw [rotl_eq_rotateLeft, BitVec.getLsbD_rotateLeft, ← Nat.add_mod_mod]
  rcases Nat.lt_or_ge (i + n % w) w with h | h
  · simp [Nat.mod_eq_of_lt h, h]
  · have hj : (i + n % w) % w = i + n % w - w := by
      rw [Nat.mod_eq_sub_mod h, Nat.mod_eq_of_lt (by omega)]
    simp [hj, show i + n % w - w < n % w by omega, show w - n % w + (i + n % w - w) = i by omega]

/-- A word that holds each bit of `x` where the rotation carries it is the rotation: every place is the target of a bit. -/
theorem eq_rotl_of_getLsbD {w : Nat} {x y : BitVec w} {n : Nat}
    (h : ∀ i, i < w → y.getLsbD ((i + n) % w) = x.getLsbD i) : y = rotl x n := by
  apply BitVec.eq_of_getLsbD_eq
  intro j hj
  have hk : n % w ≤ w := (Nat.mod_lt _ (by omega)).le
  have hi : (j + (w - n % w)) % w < w := Nat.mod_lt _ (by omega)
  have hback : ((j + (w - n % w)) % w + n) % w = j := by
    rw [Nat.mod_add_mod, ← Nat.add_mod_mod, Nat.add_assoc, Nat.sub_add_cancel hk, Nat.add_mod_right, Nat.mod_eq_of_lt hj]
  have hy := h _ hi
  have hx := getLsbD_rotl_add_mod x n hi
  rw [hback] at hy hx
  rw [hy, hx]

/-- Rotations add (40_conversion R107). -/
theorem rotl_add {w : Nat} (x : BitVec w) (a b : Nat) : rotl x (a + b) = rotl (rotl x a) b := by
  refine (eq_rotl_of_getLsbD fun i hi => ?_).symm
  have ha := getLsbD_rotl_add_mod x a hi
  have hb := getLsbD_rotl_add_mod (rotl x a) b (Nat.mod_lt (i + a) (by omega : 0 < w))
  rw [← Nat.add_assoc, ← Nat.mod_add_mod, hb, ha]

theorem rotl_zero {w : Nat} (x : BitVec w) : rotl x 0 = x := by simp [rotl]

/-- A rotation by `n` and the left rotation that stands for the right one by `n` make whole turns (40_conversion R105). -/
theorem add_turn_mod {w : Nat} (n : Nat) (hw : 0 < w) : (n + (w - n % w) % w) % w = 0 := by
  rw [Nat.add_mod_mod, ← Nat.mod_add_mod, Nat.add_sub_cancel' (Nat.mod_lt n hw).le, Nat.mod_self]

/-- A right rotation undoes a left one (40_conversion R107). -/
theorem rotr_rotl {w : Nat} (hw : 0 < w) (x : BitVec w) (n : Nat) : rotr (rotl x n) n = x := by
  rw [rotr, ← rotl_add, ← rotl_mod, add_turn_mod n hw, rotl_zero]

/-- A left rotation is the right rotation by the rest of the turn (40_conversion R107). -/
theorem rotl_eq_rotr {w n : Nat} (x : BitVec w) (h0 : 0 < n) (hn : n < w) : rotl x n = rotr x (w - n) := by
  rw [rotr, Nat.mod_eq_of_lt (by omega : w - n < w), Nat.sub_sub_self hn.le, rotl_mod]

/-- A right rotation fetches bit `i` from bit `(i + n) mod w` (40_conversion R105). -/
theorem getLsbD_rotr {w : Nat} (x : BitVec w) (n : Nat) {i : Nat} (hi : i < w) :
    (rotr x n).getLsbD i = x.getLsbD ((i + n) % w) := by
  have hw : 0 < w := by omega
  have hback : ((i + n) % w + (w - n % w) % w) % w = i := by
    rw [Nat.mod_add_mod, Nat.add_assoc, ← Nat.add_mod_mod, add_turn_mod n hw, Nat.add_zero, Nat.mod_eq_of_lt hi]
  have h := getLsbD_rotl_add_mod x ((w - n % w) % w) (Nat.mod_lt (i + n) hw)
  rwa [hback] at h

/-- Settles O43: the formula is the model's own, and the bits are `getLsbD_rotl_add_mod` and `getLsbD_rotr`. -/
theorem rotationIsByModulo : Obligations.RotationIsByModulo :=
  fun _ x n _ => ⟨fun h => if_pos h, fun h => if_neg h.ne', rfl,
    fun _ hi => ⟨getLsbD_rotl_add_mod x n hi, getLsbD_rotr x n hi⟩⟩

/-- Each width of the layer is a positive whole number of bytes (40_conversion R100). -/
theorem wholeBytes_of_mem : ∀ w ∈ [8, 16, 32, 64], w % 8 = 0 ∧ 0 < w / 8 := by decide

/-- Settles O42: assembly and serialisation undo each other in both byte orders, and rotations add. -/
theorem conversionRoundTrips : Obligations.ConversionRoundTrips := by
  refine ⟨fun w hmem xs bs => ?_, fun w hmem x a b n => ?_⟩
  · obtain ⟨hw, hpos⟩ := wholeBytes_of_mem w hmem
    exact ⟨assemble_flatMap hpos leBytes_length (ofNat_leNat_leBytes hw) xs,
      assemble_flatMap hpos beBytes_length (ofNat_beNat_beBytes hw) xs,
      fun h => ⟨flatMap_assemble (leBytes_ofNat_leNat hw) h, flatMap_assemble (beBytes_ofNat_beNat hw) h⟩,
      fun h => ⟨(leWords_refused w bs).mpr h, (beWords_refused w bs).mpr h⟩⟩
  · have hw : 0 < w := Nat.pos_of_div_pos (wholeBytes_of_mem w hmem).2
    exact ⟨rotr_rotl hw x n, rotl_add x a b, rotl_eq_rotr x⟩

/-! ### Bit reversal and masks -/

theorem mask_toNat {m : Nat} (h : m ≤ 64) : (mask m).toNat = 2 ^ m - 1 := by
  have hle : 2 ^ m ≤ 2 ^ 64 := Nat.pow_le_pow_right (by decide) h
  rw [mask, BitVec.toNat_ofNat, Nat.mod_eq_of_lt (by omega)]

/-- Settles O44: the bits by `getLsbD_reflect`, and the inverse on the values that fit `n` bits. -/
theorem reflectReversesBits : Obligations.ReflectReversesBits := by
  intro n hmem v
  have hn : n ≤ 64 := (by decide : ∀ n ∈ [8, 16, 24, 32, 40, 48, 56, 64], n ≤ 64) n hmem
  refine ⟨fun i hi => ?_, fitsBits_iff.mp (reflect_fits hn v), fun hv => reflect_reflect hn (fitsBits_iff.mpr hv),
    fun m _ hm => mask_toNat hm⟩
  rw [getLsbD_reflect hn, show n - 1 - (n - 1 - i) = i by omega]
  simp [show n - 1 - i < n by omega]

end Sys2Proof.Machine
end

section
/-! PROOFS of the statements on the engine (41_engine R119 to R131): what each command does to a hash or CRC slot, that
the pieces of a message do what the whole does, and that the streaming engine answers the one-shot digest. -/

namespace Sys2Proof.Machine

open Sys2Proof.Claims

/-! ### The step -/

/-- Settles O10: only a command can complete, the decoder read it from its encoding (O2), and it leaves the rest of the
stream alone. -/
theorem completedStepConsumesOneCommand : Obligations.CompletedStepConsumesOneCommand := by
  intro s t hs ht
  rcases step_cases s with ⟨r, -, hx⟩ | ⟨-, -, hx⟩ | ⟨-, why, slot, rest, e, -, hx⟩ | ⟨-, i, rest, hd, hx⟩ <;>
    rw [hx] at hs
  · cases hs
  · cases hs
  · cases hs
    simp at ht
  · obtain ⟨-, -, r, -, rfl⟩ := exec_completed hs ht
    obtain ⟨henc, hwf, -⟩ := decodedBytesAreTheEncoding _ _ _ hd
    exact ⟨i, hwf, henc, rfl⟩

/-- A command with an effect on the slot it names leaves the state `State.done` says, on a ready device. -/
theorem exec_of_effect {s : State} {i : Instr} {r : Effect} (h : Ready s i.slot)
    (hr : effect s.params s.cache i (s.slotAt (slotIndex i.slot)) = .ok r) : exec i s = .next (s.done i.slot r) := by
  rw [exec_ready i h.1 h.2, hr, answer]

/-- A completed command leaves the device ready for the next one. -/
theorem ready_done {s : State} {slot : Byte} (r : Effect) (h : Ready s slot) : Ready (s.done slot r) slot :=
  ⟨h.1, (s.done_nSlots slot r).symm ▸ h.2⟩

/-- A second command to the slot a completed command wrote: it finds there what the first one left. -/
theorem exec_done {s : State} {i : Instr} {r q : Effect} (h : Ready s i.slot)
    (hq : effect s.params r.2.2 i r.1 = .ok q) :
    exec i (s.done i.slot r) = .next ((s.done i.slot r).done i.slot q) := by
  refine exec_of_effect (ready_done r h) ?_
  rw [State.done_slotAt_same _ _ _ h.2]
  exact hq

/-! ### CONSTRUCT -/

/-- The CONSTRUCT rows without parameters differ only in their descriptor key (41_engine R120). -/
theorem effect_of_mem_plainConstructs {slot : Byte} {b c : Nibble} {ia : Instr × Alg} (p : Params)
    (cache : List (CrcParams × CrcTable)) (v : Slot) (h : ia ∈ plainConstructs slot b c) :
    ia.1.slot = slot ∧ effect p cache ia.1 v = constructEffect cache (plainDesc ia.2 b c) v := by
  simp only [plainConstructs, List.mem_cons, List.not_mem_nil, or_false] at h
  rcases h with rfl | rfl | rfl | rfl | rfl | rfl | rfl | rfl | rfl | rfl <;> exact ⟨rfl, rfl⟩

/-- Settles O11: with B and C 0 the descriptor key is the algorithm's, and the empty slot takes its `Init`. -/
theorem constructBindsInitialState : Obligations.ConstructBindsInitialState := by
  intro s slot h he ia hia
  obtain ⟨rfl, heff⟩ := effect_of_mem_plainConstructs s.params s.cache (s.slotAt (slotIndex slot)) hia
  refine completes_of_effect (r := (.hash (hashInit ia.2), [], s.cache)) h ?_
  rw [heff, he]
  rfl

/-- Settles O14: the empty slot passes the slot's check, and B or C fails the descriptor's. -/
theorem unwantedParametersRaiseConfigParam : Obligations.UnwantedParametersRaiseConfigParam := by
  intro s slot b c h he hbc ia hia
  obtain ⟨rfl, heff⟩ := effect_of_mem_plainConstructs s.params s.cache (s.slotAt (slotIndex slot)) hia
  refine raises_of_effect h ?_
  rw [heff, he, plainDesc, if_neg hbc, constructEffect]

/-! ### RESET and DESTROY -/

/-- Settles O19: `Init` and `CrcReset`, with the condition on the initial register as the statement spells it. -/
theorem resetRestoresInitialState : Obligations.ResetRestoresInitialState := by
  refine fun s slot h => ⟨fun i hi => ?_, fun c hc => ?_⟩
  · exact completes_of_effect (i := .reset slot) (r := (.hash (hashInit i.desc), [], s.cache)) h
      (by rw [Instr.slot, hi, effect])
  · have hreset := completes_of_effect (i := .reset slot) (r := (.crc (crcReset s.params c), [], s.cache)) h
      (by rw [Instr.slot, hc, effect])
    simpa only [Instr.slot, crcReset, initReg, Bool.and_eq_true] using hreset

/-- Settles O29: an occupied slot of either kind is emptied, and no command but CRC_CONSTRUCT writes the cache. -/
theorem destroyEmptiesSlot : Obligations.DestroyEmptiesSlot := by
  intro s slot h hne
  refine completes_of_effect (i := .destroy slot) (r := (.empty, [], s.cache)) h ?_
  rw [Instr.slot]
  cases hv : s.slotAt (slotIndex slot) with
  | empty => exact absurd hv hne
  | hash i => rfl
  | crc c => rfl

/-! ### UPDATE -/

section
variable (p : Params) (cache : List (CrcParams × CrcTable)) (slot : Byte) {i : HashInst}

theorem effect_update_hash (data : List Byte) (ha : i.phase = .active) :
    effect p cache (.update slot data) (.hash i) = .ok (.hash (hashUpdate i data), [], cache) := by
  simp only [effect, ha]

theorem effect_finalize_hash (ha : i.phase = .active) :
    effect p cache (.finalize slot) (.hash i) = .ok (.hash (hashFinalized p i), hashDigest p i, cache) := by
  simp only [effect, ha]

end

/-- Settles O20: the effect of UPDATE, by the one equation `hashUpdate_eq` of TopOff and Blocks. -/
theorem updateFoldsWholeBlocks : Obligations.UpdateFoldsWholeBlocks := by
  intro s slot i data h hi ha hb
  have hupd := completes_of_effect (i := .update slot data) h
    ((congrArg _ hi).trans (effect_update_hash s.params s.cache slot data ha))
  simpa only [Instr.slot, hashUpdate_eq i data hb, ha] using hupd

/-- A command that leaves its slot and the cache as they were changes only `ncmd` and the response stream. -/
theorem State.done_slotAt_self (s : State) {slot : Byte} (payload : List Byte) (h : slotIndex slot < s.nSlots) :
    s.done slot (s.slotAt (slotIndex slot), payload, s.cache) =
      { s with ncmd := s.ncmd + 1, responses := s.responses ++ 0x00 :: payload } :=
  congrArg (fun u : State => (u.respond (0x00 :: payload)).advance) (s.setSlot_slotAt_self h)

/-- UPDATE of no bytes has no effect on an active slot it does not change. -/
theorem exec_update_nil {s : State} {slot : Byte} (h : Ready s slot)
    (heff : effect s.params s.cache (.update slot []) (s.slotAt (slotIndex slot)) =
      .ok (s.slotAt (slotIndex slot), [], s.cache)) :
    exec (.update slot []) s = .next { s with ncmd := s.ncmd + 1, responses := s.responses ++ [0x00] } :=
  (exec_of_effect (i := .update slot []) h heff).trans (congrArg _ (s.done_slotAt_self [] h.2))

@[simp] theorem crcUpdate_nil (c : CrcInst) : crcUpdate c [] = c := rfl

/-- Settles O21: UPDATE of no bytes leaves either kind of active engine as it was, and the phase is read first. -/
theorem zeroLengthUpdateChangesNothing : Obligations.ZeroLengthUpdateChangesNothing := by
  refine fun s slot h => ⟨fun i hi hb => ⟨fun ha => ?_, fun hfin => ?_⟩,
    fun c hc => ⟨fun ha => ?_, fun hfin => ?_⟩⟩
  · refine exec_update_nil h ?_
    rw [hi, effect_update_hash _ _ _ _ ha, hashUpdate_nil i hb]
  · exact raises_of_effect (i := .update slot []) h (by simp only [Instr.slot, hi, effect, hfin])
  · refine exec_update_nil h ?_
    simp only [hc, effect, ha, crcUpdate_nil]
  · exact raises_of_effect (i := .update slot []) h (by simp only [Instr.slot, hc, effect, hfin])

/-! ### FINALIZE -/

/-- Settles O24: the accumulator is `hashFinalAcc`, whose shape fixes the digest's length. -/
theorem finalizeAnswersDigest : Obligations.FinalizeAnswersDigest := by
  intro s slot i h hi ha hwf
  refine ⟨hashFinalAcc s.params i, rfl, ?_, ?_⟩
  · rw [descriptor_digestBits]
    exact hashDigest_length s.params hwf
  · exact completes_of_effect (i := .finalize slot) h
      ((congrArg _ hi).trans (effect_finalize_hash s.params s.cache slot ha))

/-! ### COMPUTE as three commands -/

/-- On the slot, COMPUTE is RESET, then UPDATE, then FINALIZE, for either kind of engine (41_engine R127; 43_crc R190). -/
theorem effect_compute {v : Slot} (p : Params) (cache : List (CrcParams × CrcTable)) (slot : Byte) (data : List Byte)
    (hv : v ≠ .empty) :
    ∃ v1 v2 v3 digest, effect p cache (.reset slot) v = .ok (v1, [], cache) ∧
      effect p cache (.update slot data) v1 = .ok (v2, [], cache) ∧
      effect p cache (.finalize slot) v2 = .ok (v3, digest, cache) ∧
      effect p cache (.compute slot data) v = .ok (v3, digest, cache) := by
  cases v with
  | empty => exact absurd rfl hv
  | hash i =>
    exact ⟨_, _, _, _, rfl, rfl, effect_finalize_hash p cache slot (hashUpdate_phase (hashInit i.desc) data), rfl⟩
  | crc c => exact ⟨_, _, _, _, rfl, rfl, rfl, rfl⟩

/-- Settles O26: each of the three commands finds what the one before it left, and the last write to the slot stands. -/
theorem computeIsResetUpdateFinalize : Obligations.ComputeIsResetUpdateFinalize := by
  intro s slot data h hne
  obtain ⟨v1, v2, v3, digest, hreset, hupdate, hfinalize, hcompute⟩ := effect_compute s.params s.cache slot data hne
  have hx1 := exec_of_effect (i := .reset slot) h hreset
  have hx2 := exec_done (i := .update slot data) (r := (v1, [], s.cache)) h hupdate
  have hx3 := exec_done (i := .finalize slot) (r := (v2, [], s.cache)) (ready_done (v1, [], s.cache) h) hfinalize
  have hx := exec_of_effect (i := .compute slot data) h hcompute
  refine ⟨_, _, _, _, digest, hx1, hx2, hx3, hx, ?_, rfl, h.1, rfl, rfl, rfl⟩
  simp only [State.done_slots, List.set_set, Instr.slot]

/-! ### The one-shot digest -/

/-- The number of zeros depends on the bytes of the last, partial block only (42_padding R155). -/
theorem padZeros_add_mul (bs k b reserved : Nat) : padZeros bs (k * bs + b) reserved = padZeros bs b reserved := by
  simp only [padZeros, Nat.add_assoc, Nat.mul_add_mod']

/-- Padding the whole message is padding what follows its whole blocks, with their bytes counted (42_padding R155,
R156). -/
theorem paddedMessage_append (p : Params) (a : Alg) {k : Nat} {x : List Byte} (y : List Byte)
    (hx : x.length = k * blockSize a) : paddedMessage p a (x ++ y) = x ++ padTail p a y (k * blockSize a) := by
  simp only [paddedMessage, padTail, totalBits, descriptor_blockSize, List.length_append, hx, padZeros_add_mul,
    List.append_assoc]

/-- The one-shot digest compresses the whole blocks, then the tail the rest pads to (41_engine R125, R126). -/
theorem oneShotDigest_append (p : Params) (a : Alg) {k : Nat} {x : List Byte} (y : List Byte)
    (hx : x.length = k * blockSize a) :
    oneShotDigest p a (x ++ y) =
      output p a (compressBlocks a ((padTail p a y (k * blockSize a)).length / blockSize a)
        (compressBlocks a k (initialAcc a) x) (padTail p a y (k * blockSize a))) := by
  have hblocks (tail : List Byte) : (k * blockSize a + tail.length) / blockSize a = k + tail.length / blockSize a := by
    rw [Nat.mul_comm, Nat.mul_add_div (blockSize_pos a)]
  simp only [oneShotDigest, paddedMessage_append p a y hx, List.length_append, hx, hblocks]
  rw [compressBlocks_add, compressBlocks_append a k _ x _ hx.ge, ← hx, List.drop_left]

/-- What the bytes received since `Init` leave (41_engine R125). -/
theorem hashUpdate_hashInit (a : Alg) (m : List Byte) :
    hashUpdate (hashInit a) m =
      { desc := a, phase := .active, buf := m.drop (blockSize a * (m.length / blockSize a)),
        count := blockSize a * (m.length / blockSize a),
        acc := compressBlocks a (m.length / blockSize a) (initialAcc a) m } := by
  rw [hashUpdate_eq (hashInit a) m (blockSize_pos a)]
  simp [hashInit, buffered]

theorem buffered_hashUpdate_hashInit (a : Alg) (m : List Byte) :
    buffered (hashUpdate (hashInit a) m) = m.length % blockSize a := by
  rw [buffered_hashUpdate (hashInit a) m (blockSize_pos a)]
  exact congrArg (· % blockSize a) (Nat.zero_add _)

/-- The digest of an engine that has received `m` since `Init` is the one-shot digest of `m`: its accumulator stands for the
whole blocks of `m`, and its buffer is the rest. -/
theorem hashDigest_hashUpdate_hashInit (p : Params) (a : Alg) (m : List Byte) :
    hashDigest p (hashUpdate (hashInit a) m) = oneShotDigest p a m := by
  have hle := Nat.div_mul_le_self m.length (blockSize a)
  have hwhole : (m.take (m.length / blockSize a * blockSize a)).length = m.length / blockSize a * blockSize a :=
    List.length_take_of_le hle
  have hacc := compressBlocks_append a _ (initialAcc a) _ (m.drop (m.length / blockSize a * blockSize a)) hwhole.ge
  have hone := oneShotDigest_append p a (m.drop (m.length / blockSize a * blockSize a)) hwhole
  rw [List.take_append_drop] at hacc hone
  rw [hone, ← hacc, hashUpdate_hashInit, Nat.mul_comm]
  rfl

/-- Settles O27: COMPUTE finalizes the engine that has received DATA since `Init`. -/
theorem computeAnswersOneShotDigest : Obligations.ComputeAnswersOneShotDigest := by
  intro s slot i data h hi
  refine ⟨hashFinalized s.params (hashUpdate (hashInit i.desc) data), hashUpdate_desc .., rfl, ?_, ?_, ?_⟩
  · rw [hashUpdate_hashInit]
    rfl
  · exact buffered_hashUpdate_hashInit i.desc data
  · rw [← hashDigest_hashUpdate_hashInit]
    exact completes_of_effect (i := .compute slot data) h (congrArg _ hi)

/-! ### Pieces of a message -/

/-- The device can take an UPDATE of the active hash engine `i` in the slot, with less than a block buffered
(10_state R25). -/
structure Accepts (s : State) (slot : Byte) (i : HashInst) : Prop where
  ready : Ready s slot
  slotAt : s.slotAt (slotIndex slot) = .hash i
  active : i.phase = .active
  buffered_lt : buffered i < blockSize i.desc

namespace Accepts
variable {s : State} {slot : Byte} {i : HashInst}

theorem of_hashInit {a : Alg} (h : Ready s slot) (hi : s.slotAt (slotIndex slot) = .hash (hashInit a)) :
    Accepts s slot (hashInit a) := ⟨h, hi, rfl, blockSize_pos a⟩

theorem exec_update (h : Accepts s slot i) (data : List Byte) :
    exec (.update slot data) s = .next (s.done slot (.hash (hashUpdate i data), [], s.cache)) :=
  exec_of_effect (i := .update slot data) h.ready
    ((congrArg _ h.slotAt).trans (effect_update_hash s.params s.cache slot data h.active))

theorem exec_finalize (h : Accepts s slot i) :
    exec (.finalize slot) s =
      .next (s.done slot (.hash (hashFinalized s.params i), hashDigest s.params i, s.cache)) :=
  exec_of_effect (i := .finalize slot) h.ready
    ((congrArg _ h.slotAt).trans (effect_finalize_hash s.params s.cache slot h.active))

/-- After an UPDATE the slot takes the next one. -/
theorem done_update (h : Accepts s slot i) (data : List Byte) :
    Accepts (s.done slot (.hash (hashUpdate i data), [], s.cache)) slot (hashUpdate i data) where
  ready := ready_done _ h.ready
  slotAt := State.done_slotAt_same _ _ _ h.ready.2
  active := (hashUpdate_phase i data).trans h.active
  buffered_lt := by simpa using buffered_hashUpdate_lt i data h.buffered_lt

/-- The pieces of a message leave in the slot what the whole message does (41_engine R125). -/
theorem updateAll_next (h : Accepts s slot i) (chunks : List (List Byte)) :
    ∃ t, updateAll slot chunks s = .next t ∧ Accepts t slot (hashUpdate i chunks.flatten) ∧
      t.slots = s.slots.set (slotIndex slot) (.hash (hashUpdate i chunks.flatten)) ∧
      t.ncmd = s.ncmd + chunks.length ∧ t.params = s.params := by
  induction chunks generalizing s i with
  | nil =>
    rw [List.flatten_nil, hashUpdate_nil i h.buffered_lt, ← h.slotAt]
    exact ⟨s, rfl, h, (congrArg State.slots (s.setSlot_slotAt_self h.ready.2)).symm, rfl, rfl⟩
  | cons c cs ih =>
    obtain ⟨t, hrun, ht, hslots, hncmd, hparams⟩ := ih (h.done_update c)
    rw [hashUpdate_append i c cs.flatten h.buffered_lt] at ht hslots
    refine ⟨t, ?_, ht, ?_, ?_, hparams⟩
    · rw [updateAll, h.exec_update c]
      exact hrun
    · rw [hslots, State.done_slots, List.set_set, List.flatten_cons]
    · rw [hncmd, State.done_ncmd, List.length_cons]
      omega

end Accepts

/-- Settles O22: pieces and whole message leave equal slots (`Accepts.updateAll_next`), so FINALIZE finds one engine after
either; from `Init` it is the one of `hashUpdate_hashInit`. -/
theorem chunkInvariance : Obligations.ChunkInvariance := by
  intro s slot i chunks h hi ha hb
  have hs : Accepts s slot i := ⟨h, hi, ha, hb⟩
  obtain ⟨t, hrun, ht, hslots, hncmd, hparams⟩ := hs.updateAll_next chunks
  have hu := hs.done_update chunks.flatten
  have hfin := ht.exec_finalize
  rw [hparams] at hfin
  refine ⟨t, _, hrun, hs.exec_update chunks.flatten, hslots, ht.ready.1, hncmd,
    ⟨_, _, _, hfin, hu.exec_finalize, ?_, rfl, rfl⟩, fun hinit => ⟨_, ht.slotAt, ?_⟩⟩
  · simp only [State.done_slots, State.done_params, hslots]
  · have hbuffered := buffered_hashUpdate_hashInit i.desc chunks.flatten
    rw [← hinit] at hbuffered
    have hleft := hashUpdate_hashInit i.desc chunks.flatten
    rw [← hinit] at hleft
    refine ⟨hashUpdate_desc .., ht.active, ?_, ?_, hbuffered, ?_⟩ <;> rw [hleft]

/-- Settles O23: the pieces leave what their concatenation leaves, whose digest is the one-shot one. -/
theorem streamingEqualsOneShot : Obligations.StreamingEqualsOneShot := by
  intro s slot a chunks h hi
  obtain ⟨t, hrun, ht, -, -, hparams⟩ := (Accepts.of_hashInit h hi).updateAll_next chunks
  refine ⟨t, _, hrun, ht.exec_finalize, ?_⟩
  rw [State.done_responses, hparams, hashDigest_hashUpdate_hashInit]

end Sys2Proof.Machine
end

section
/-! PROOFS of the statements on the padding (42_padding R150 to R158): the number of zeros is the one number below a block
that fills the last block, and the length field reads back as the bit count. -/

namespace Sys2Proof.Machine

open Sys2Proof.Claims

/-! ### The length field -/

@[simp] theorem lenField_length (d : Descriptor) (bits : Nat) : (lenField d bits).length = d.lenBytes := by
  unfold lenField
  cases d.lenOrder with
  | le => exact leBytesOf_length ..
  | be => exact beBytesOf_length ..

theorem leNat_lenField {d : Descriptor} (bits : Nat) (h : d.lenOrder = .le) :
    leNat (lenField d bits) = bits % 2 ^ (8 * d.lenBytes) := by
  simp only [lenField, h, leNat_leBytesOf, Nat.pow_mul, Nat.reducePow, Nat.mod_mod]

theorem beNat_lenField {d : Descriptor} (bits : Nat) (h : d.lenOrder = .be) :
    beNat (lenField d bits) = bits % 2 ^ (8 * d.lenBytes) := by
  simp only [lenField, h, beNat_beBytesOf, Nat.pow_mul, Nat.reducePow, Nat.mod_mod]

/-- Settles O40: `padTail` ends with `lenField` of the bit count, which reads back in either byte order. -/
theorem lengthFieldCarriesBitCount : Obligations.LengthFieldCarriesBitCount :=
  fun p a t count => ⟨lenField (descriptor p a) (totalBits count t.length), List.suffix_append .., lenField_length ..,
    leNat_lenField _, beNat_lenField _⟩

/-! ### The trailer -/

@[simp] theorem descriptor_haval_trailer (p : Params) (passes : HavalPasses) (hlen : HavalLen) :
    (descriptor p (.haval passes hlen)).trailer = havalCfg (havalPassCount passes) (havalBits hlen) := rfl

theorem descriptor_trailer_of_ne_haval (p : Params) {a : Alg} (h : ∀ passes hlen, a ≠ .haval passes hlen) :
    (descriptor p a).trailer = [] := by
  cases a with
  | haval passes hlen => exact absurd rfl (h passes hlen)
  | _ => rfl

/-- Settles O41: the 15 rows of the table of R157. -/
theorem havalConfigurationBytes : Obligations.HavalConfigurationBytes := by
  intro p passes hlen
  rw [descriptor_haval_trailer]
  cases passes <;> cases hlen <;> rfl

/-! ### The zeros -/

section
variable {bs : Nat} (b reserved : Nat)

theorem padZeros_lt (hbs : 0 < bs) : padZeros bs b reserved < bs := Nat.mod_lt _ hbs

/-- The zeros fill the last block (42_padding R155). -/
theorem padZeros_fills (hbs : 0 < bs) : (b + 1 + padZeros bs b reserved + reserved) % bs = 0 := by
  rw [Nat.add_right_comm]
  exact add_turn_mod (b + 1 + reserved) hbs

/-- Of the numbers below a block only `padZeros` fills the last block, since two that do are congruent. -/
theorem eq_padZeros_of_fills {k : Nat} (hk : k < bs) (h : (b + 1 + k + reserved) % bs = 0) :
    k = padZeros bs b reserved := by
  have hbs : 0 < bs := Nat.zero_lt_of_lt hk
  have hsum : b + 1 + k + reserved ≡ b + 1 + padZeros bs b reserved + reserved [MOD bs] :=
    h.trans (padZeros_fills b reserved hbs).symm
  exact (hsum.add_right_cancel' _).add_left_cancel' _ |>.eq_of_lt_of_lt hk (padZeros_lt b reserved hbs)

end

/-- Settles O38: fewer zeros than `padZeros` are below a block too, so they cannot fill the last one. -/
theorem padTailHasLeastZeroFill : Obligations.PadTailHasLeastZeroFill := by
  intro p a t count
  have hbs := blockSize_pos a
  refine ⟨padZeros (blockSize a) t.length ((descriptor p a).trailer.length + (descriptor p a).lenBytes), ?_,
    padZeros_fills _ _ hbs, fun k' hlt hfills => ?_, descriptor_trailer_of_ne_haval p, ?_⟩
  · simp only [padTail, descriptor_blockSize, totalBits]
  · have hk' := hlt.trans (padZeros_lt _ _ hbs)
    exact hlt.ne (eq_padZeros_of_fills _ _ hk' hfills)
  · rintro passes hlen rfl
    exact descriptor_haval_trailer ..

/-! ### The final blocks -/

/-- The bound of R158 leaves room in the block for the marker, the trailer and the length field, and no more. -/
theorem oneBlockUpTo_add (p : Params) (a : Alg) :
    oneBlockUpTo a + 1 + ((descriptor p a).trailer.length + (descriptor p a).lenBytes) = blockSize a := by
  cases a <;> rfl

/-- Fewer than a block of zeros that bring the tail to `n` blocks are the zeros it has. -/
theorem padTail_length_of_fills {p : Params} {a : Alg} {t : List Byte} {k n : Nat} (count : Nat) (hk : k < blockSize a)
    (h : t.length + 1 + k + ((descriptor p a).trailer.length + (descriptor p a).lenBytes) = n * blockSize a) :
    (padTail p a t count).length = n * blockSize a := by
  have hzeros := eq_padZeros_of_fills t.length _ hk (by rw [h, Nat.mul_mod_left])
  rw [padTail_length, ← hzeros, h]

/-- Settles O39: up to the bound the zeros fill the first block, beyond it a second one. -/
theorem finalBlockCountByBuffered : Obligations.FinalBlockCountByBuffered := by
  intro p a t count hlt
  have hbound := oneBlockUpTo_add p a
  refine ⟨fun hle => ?_, fun hgt => ?_⟩
  · rw [← Nat.one_mul (blockSize a)]
    exact padTail_length_of_fills (k := oneBlockUpTo a - t.length) count (by omega) (by omega)
  · exact padTail_length_of_fills (k := blockSize a + oneBlockUpTo a - t.length) count (by omega) (by omega)

end Sys2Proof.Machine
end

section
/-! PROOFS of the statements on the CRC engine (43_crc R181 to R191): the table is linear and holds the 8 shifts of a byte,
so a lookup stands for them; then what the commands do to the cache and to a CRC slot. -/

namespace Sys2Proof.Machine

open Sys2Proof.Claims

/-! ### The table -/

theorem xor_and_mask (x y : Word64) (n : Nat) : (x ^^^ y) &&& mask n = x &&& mask n ^^^ y &&& mask n := by
  ext i hi
  simp [Bool.and_xor_distrib_right]

/-- Settles O34: each operation from an index to its entry commutes with XOR. -/
theorem crcTableIsLinear : Obligations.CrcTableIsLinear := by
  intro p a b
  have hn := (orderBits_bounds p.order).2.1
  rw [genTable_getD p (a ^^^ b).isLt, genTable_getD p a.isLt, genTable_getD p b.isLt]
  simp only [tableEntry, BitVec.ofNat_toNat, BitVec.setWidth_xor]
  cases p.reflect with
  | false => simp [BitVec.shiftLeft_xor_distrib, crcShifts_xor, xor_and_mask]
  | true =>
    simp [BitVec.shiftLeft_xor_distrib, crcShifts_xor, xor_and_mask, reflect_xor (by decide : 8 ≤ 64), reflect_xor hn]

section
variable {p : CrcParams}

theorem fitsBits_poly (h : crcParamsWf p = true) : FitsBits (orderBits p.order) p.poly := by
  simp only [crcParamsWf, fitsOrder, Bool.and_eq_true, decide_eq_true_eq] at h
  exact fitsBits_iff.mpr h.1.1

/-- An entry of the table is the 8 shifts of its index at the top of the register (43_crc R181). -/
theorem tableEntry_of_not_reflect (h : crcParamsWf p = true) (hr : p.reflect = false) (v : Nat) :
    tableEntry p v = crcShifts (orderBits p.order) p.poly 8 (BitVec.ofNat 64 v <<< (orderBits p.order - 8)) := by
  have hn := (orderBits_bounds p.order).2.1
  simp only [tableEntry, hr, Bool.false_eq_true, if_false]
  exact and_mask_of_fits hn (crcShifts_fits hn (fitsBits_poly h) 8 _ (by decide))

/-- In the reflected form the same holds of the mirror images (43_crc R181). -/
theorem reflect_tableEntry (h : crcParamsWf p = true) (hr : p.reflect = true) (v : Nat) :
    reflect (orderBits p.order) (tableEntry p v) =
      crcShifts (orderBits p.order) p.poly 8 (reflect 8 (BitVec.ofNat 64 v) <<< (orderBits p.order - 8)) := by
  have hn := (orderBits_bounds p.order).2.1
  simp only [tableEntry, hr, if_true]
  rw [and_mask_of_fits hn (reflect_fits hn _),
    reflect_reflect hn (crcShifts_fits hn (fitsBits_poly h) 8 _ (by decide))]

end

/-! ### The 8 shifts of a byte -/

section
variable {n : Nat}

/-- The bits below the top byte and the top byte make the register. -/
theorem low_xor_top (hn : n ≤ 64) (x : Word64) : (x &&& mask (n - 8)) ^^^ (x >>> (n - 8)) <<< (n - 8) = x := by
  apply BitVec.eq_of_getLsbD_eq
  intro i hi
  rw [BitVec.getLsbD_xor, BitVec.getLsbD_and, getLsbD_mask (by omega), BitVec.getLsbD_shiftLeft,
    BitVec.getLsbD_ushiftRight]
  by_cases h : i < n - 8
  · simp [h]
  · simp [h, hi, show n - 8 + (i - (n - 8)) = i by omega]

/-- To shift the bits below the top byte up is to shift within the register. -/
theorem low_shiftLeft (hlo : 8 ≤ n) (hn : n ≤ 64) (x : Word64) :
    (x &&& mask (n - 8)) <<< 8 = (x <<< 8) &&& mask n := by
  apply BitVec.eq_of_getLsbD_eq
  intro i hi
  rw [BitVec.getLsbD_and, getLsbD_mask hn, BitVec.getLsbD_shiftLeft, BitVec.getLsbD_shiftLeft, BitVec.getLsbD_and,
    getLsbD_mask (by omega)]
  by_cases h : i < 8
  · simp [h]
  · simp [hi, h, show i - 8 < n - 8 ↔ i < n by omega]

/-- 8 shifts carry the bits below the top byte up, and only the top byte meets the polynomial: the reason one table lookup
stands for them. -/
theorem crcShifts_eight (hlo : 8 ≤ n) (hn : n ≤ 64) (poly x : Word64) :
    crcShifts n poly 8 x = ((x <<< 8) &&& mask n) ^^^ crcShifts n poly 8 ((x >>> (n - 8)) <<< (n - 8)) := by
  have hlow : FitsBits (n - 8) (x &&& mask (n - 8)) := fun j hj => by
    simp [getLsbD_mask (show n - 8 ≤ 64 by omega), Nat.not_lt.mpr hj]
  rw [← low_shiftLeft hlo hn x, ← crcShifts_low hn poly 8 _ hlo hlow, ← crcShifts_xor, low_xor_top hn x]

/-- A byte at the top of the register leaves it whole in 8 shifts. -/
theorem top_shiftLeft (hlo : 8 ≤ n) (hn : n ≤ 64) (v : Word64) : ((v <<< (n - 8)) <<< 8) &&& mask n = 0#64 := by
  apply BitVec.eq_of_getLsbD_eq
  intro i _
  rw [← BitVec.shiftLeft_add, Nat.sub_add_cancel hlo, BitVec.getLsbD_and, getLsbD_mask hn, BitVec.getLsbD_shiftLeft]
  by_cases h : i < n <;> simp [h]

theorem top_ushiftRight (hn : n ≤ 64) {v : Word64} (hv : FitsBits 8 v) : (v <<< (n - 8)) >>> (n - 8) = v := by
  apply BitVec.eq_of_getLsbD_eq
  intro i _
  rw [BitVec.getLsbD_ushiftRight, BitVec.getLsbD_shiftLeft]
  by_cases h : i < 8
  · simp [show n - 8 + i < 64 by omega]
  · simp [hv i (Nat.not_lt.mp h)]

/-- The 8 shifts of a register that a byte has entered at the top. -/
theorem crcShifts_byte (hlo : 8 ≤ n) (hn : n ≤ 64) (poly x : Word64) {v : Word64} (hv : FitsBits 8 v) :
    crcShifts n poly 8 (x ^^^ v <<< (n - 8)) =
      ((x <<< 8) &&& mask n) ^^^ crcShifts n poly 8 ((x >>> (n - 8) ^^^ v) <<< (n - 8)) := by
  rw [crcShifts_eight hlo hn, BitVec.shiftLeft_xor_distrib, xor_and_mask, top_shiftLeft hlo hn, BitVec.xor_zero,
    BitVec.ushiftRight_xor_distrib, top_ushiftRight hn hv]

/-! ### The mirror image of the register -/

/-- On the mirror image a right shift is the shift within the register. -/
theorem reflect_ushiftRight_eight (hn : n ≤ 64) {x : Word64} (hx : FitsBits n x) :
    reflect n (x >>> 8) = (reflect n x <<< 8) &&& mask n := by
  apply BitVec.eq_of_getLsbD_eq
  intro i hi
  rw [getLsbD_reflect hn, BitVec.getLsbD_ushiftRight, BitVec.getLsbD_and, getLsbD_mask hn, BitVec.getLsbD_shiftLeft,
    getLsbD_reflect hn]
  by_cases h : i < 8
  · simp [h, hx (8 + (n - 1 - i)) (by omega)]
  · by_cases hin : i < n
    · simp [h, hi, hin, show i - 8 < n by omega, show 8 + (n - 1 - i) = n - 1 - (i - 8) by omega]
    · simp [hin]

/-- The top byte of the mirror image is the mirror image of the low byte. -/
theorem reflect_ushiftRight_top (hlo : 8 ≤ n) (hn : n ≤ 64) (x : Word64) :
    reflect n x >>> (n - 8) = reflect 8 x := by
  apply BitVec.eq_of_getLsbD_eq
  intro i _
  rw [BitVec.getLsbD_ushiftRight, getLsbD_reflect hn, getLsbD_reflect (by decide)]
  by_cases h : i < 8
  · simp [h, show n - 8 + i < n by omega, show n - 1 - (n - 8 + i) = 7 - i by omega]
  · simp [h, show ¬n - 8 + i < n by omega]

theorem reflect_eight_and_ff (x : Word64) : reflect 8 (x &&& 0xFF) = reflect 8 x := by
  apply BitVec.eq_of_getLsbD_eq
  intro i _
  rw [show (0xFF : Word64) = mask 8 from rfl, getLsbD_reflect (by decide), getLsbD_reflect (by decide),
    BitVec.getLsbD_and, getLsbD_mask (by decide)]
  by_cases h : i < 8
  · simp [show 8 - 1 - i < 8 by omega]
  · simp [h]

end

/-! ### The update of the register -/

theorem and_ff_toNat_lt (x : Word64) : (x &&& 0xFF).toNat < 256 := by
  rw [BitVec.toNat_and]
  exact Nat.lt_succ_of_le Nat.and_le_right

theorem fitsBits_byte (b : Byte) : FitsBits 8 (b.setWidth 64) := by
  intro j hj
  simp [BitVec.getLsbD_of_ge b j hj]

theorem ushiftRight_fits {n k : Nat} {x : Word64} (hx : FitsBits n x) : FitsBits (n - k) (x >>> k) := by
  intro j hj
  rw [BitVec.getLsbD_ushiftRight, hx _ (by omega)]

theorem xor_fits {n : Nat} {x y : Word64} (hx : FitsBits n x) (hy : FitsBits n y) : FitsBits n (x ^^^ y) := by
  intro j hj
  rw [BitVec.getLsbD_xor, hx j hj, hy j hj, Bool.xor_false]

/-- The top byte of the register with a byte in it is a byte, so the table's index is that value. -/
theorem index_of_fits {n : Nat} (hlo : 8 ≤ n) {x : Word64} (hx : FitsBits n x) (b : Byte) :
    (x >>> (n - 8) ^^^ b.setWidth 64) &&& 0xFF = x >>> (n - 8) ^^^ b.setWidth 64 := by
  have htop : FitsBits 8 (x >>> (n - 8)) := by
    simpa only [Nat.sub_sub_self hlo] using ushiftRight_fits (k := n - 8) hx
  exact and_mask_of_fits (n := 8) (by decide) (xor_fits htop (fitsBits_byte b))

/-- Settles O35: 8 shifts of the register with the byte at its top are a lookup of its top byte (`crcShifts_byte`), and on
the mirror image that byte is the low one. -/
theorem tableDrivenCrcIsBitSerial : Obligations.TableDrivenCrcIsBitSerial := by
  intro c reg b hwf ht hreg
  obtain ⟨hlo, hn, -⟩ := orderBits_bounds c.params.order
  have hfit : FitsBits (orderBits c.params.order) reg := fitsBits_iff.mpr (of_decide_eq_true hreg)
  refine ⟨fun hr => ?_, fun hr => ?_⟩
  · rw [crcShifts_byte hlo hn _ _ (fitsBits_byte b)]
    simp only [crcByte, hr, Bool.false_eq_true, if_false]
    rw [ht, genTable_getD _ (and_ff_toNat_lt _), tableEntry_of_not_reflect hwf hr, BitVec.ofNat_toNat,
      BitVec.setWidth_eq, index_of_fits hlo hfit]
  · rw [crcShifts_byte hlo hn _ _ (reflect_fits (by decide) _)]
    simp only [crcByte, hr, if_true]
    rw [ht, genTable_getD _ (and_ff_toNat_lt _), reflect_xor hn, reflect_tableEntry hwf hr, BitVec.ofNat_toNat,
      BitVec.setWidth_eq, reflect_eight_and_ff, reflect_xor (by decide), reflect_ushiftRight_eight hn hfit,
      reflect_ushiftRight_top hlo hn]

/-! ### The cache -/

/-- A lookup answers what the cache holds, and changes nothing (43_crc R184). -/
theorem cacheLookup_of_find_some {cache : List (CrcParams × CrcTable)} {p : CrcParams} {t : CrcTable}
    (h : cacheFind cache p = some t) : cacheLookup cache p = (t, cache) := by rw [cacheLookup, h]

/-- A lookup of a key that is not there inserts it with its generated table (43_crc R184). -/
theorem cacheLookup_of_find_none {cache : List (CrcParams × CrcTable)} {p : CrcParams} (h : cacheFind cache p = none) :
    cacheLookup cache p = (genTable p, cacheInsert cache p (genTable p)) := by rw [cacheLookup, h]

/-- A second lookup of a key finds what the first one left. -/
theorem cacheLookup_idem (cache : List (CrcParams × CrcTable)) (p : CrcParams) :
    cacheLookup (cacheLookup cache p).2 p = cacheLookup cache p :=
  cacheLookup_of_find_some (cacheFind_cacheLookup_same cache p)

/-- Settles O32: the two answers of a lookup, and `GenTable` reads the order, the polynomial and the form only. -/
theorem cacheLookupInsertsOnce : Obligations.CacheLookupInsertsOnce := by
  refine fun cache p q t => ⟨cacheLookup_of_find_some, fun hn => ?_, fun _ _ => rfl⟩
  rw [cacheLookup_of_find_none hn]
  exact ⟨rfl, cacheFind_cacheInsert_same _ hn, cacheFind_cacheInsert_ne cache _⟩

/-! ### The parameter checks -/

/-- The orders are the eight numbers of R185. -/
theorem exists_orderBits_iff {n : Nat} : (∃ o, orderBits o = n) ↔ n ∈ [8, 16, 24, 32, 40, 48, 56, 64] := by
  constructor
  · rintro ⟨o, rfl⟩
    cases o <;> decide
  · simp only [List.mem_cons, List.not_mem_nil, or_false]
    rintro (rfl | rfl | rfl | rfl | rfl | rfl | rfl | rfl)
    exacts [⟨.o8, rfl⟩, ⟨.o16, rfl⟩, ⟨.o24, rfl⟩, ⟨.o32, rfl⟩, ⟨.o40, rfl⟩, ⟨.o48, rfl⟩, ⟨.o56, rfl⟩, ⟨.o64, rfl⟩]

theorem crcOrderOf_eq_none {order : Byte} (h : ¬∃ o, orderBits o = order.toNat) : crcOrderOf order = none :=
  Option.eq_none_iff_forall_ne_some.mpr fun o ho => h ⟨o, crcOrderOf_orderBits.mp ho⟩

section
variable {order : Byte} {refl : Bool} {poly init xorout : Word64}

theorem crcParamsOf_badOrder (h : ¬∃ o, orderBits o = order.toNat) :
    crcParamsOf order refl poly init xorout = .error .configCrcOrder := by rw [crcParamsOf, crcOrderOf_eq_none h]

/-- A legal order and a value too wide for it (43_crc R185). -/
theorem crcParamsOf_tooWide {o : CrcOrder} (ho : orderBits o = order.toNat)
    (h : 2 ^ orderBits o ≤ poly.toNat ∨ 2 ^ orderBits o ≤ init.toNat ∨ 2 ^ orderBits o ≤ xorout.toNat) :
    crcParamsOf order refl poly init xorout = .error .configCrcValue := by
  simp only [crcParamsOf, crcOrderOf_orderBits.mpr ho]
  exact if_neg (by omega)

end

/-- A well-formed parameter record is read from its own operands (43_crc R185). -/
theorem crcParamsOf_of_wf {order : Byte} {p : CrcParams} (ho : orderBits p.order = order.toNat)
    (h : crcParamsWf p = true) : crcParamsOf order p.reflect p.poly p.init p.xorout = .ok p := by
  simp only [crcParamsWf, fitsOrder, Bool.and_eq_true, decide_eq_true_eq, and_assoc] at h
  simp only [crcParamsOf, crcOrderOf_orderBits.mpr ho]
  exact if_pos h

/-! ### CRC_CONSTRUCT -/

section
variable {pr : Params} {cache : List (CrcParams × CrcTable)} {slot order : Byte} {refl : Bool}
  {poly init xorout : Word64}

theorem effect_crcConstruct_error {e : ErrorCode} (h : crcParamsOf order refl poly init xorout = .error e) :
    effect pr cache (.crcConstruct slot order refl poly init xorout) .empty = .error e := by simp only [effect, h]

theorem effect_crcConstruct_ok {p : CrcParams} (h : crcParamsOf order refl poly init xorout = .ok p) :
    effect pr cache (.crcConstruct slot order refl poly init xorout) .empty =
      .ok (.crc (crcInit pr p (cacheLookup cache p).1), [], (cacheLookup cache p).2) := by simp only [effect, h]

/-- A CRC_CONSTRUCT that completes passed the checks and looked its parameters up (43_crc R186). -/
theorem effect_crcConstruct_eq_ok {v : Slot} {r : Effect}
    (h : effect pr cache (.crcConstruct slot order refl poly init xorout) v = .ok r) :
    ∃ p, crcParamsOf order refl poly init xorout = .ok p ∧
      r = (.crc (crcInit pr p (cacheLookup cache p).1), [], (cacheLookup cache p).2) := by
  simp only [effect] at h
  split at h <;> cases h
  next p hp => exact ⟨p, hp, rfl⟩

end

/-- Settles O31: the empty slot passes the slot's check, then the order is read before the values. -/
theorem crcConfigurationChecks : Obligations.CrcConfigurationChecks := by
  refine fun s slot order refl poly init xorout h he => ⟨fun hbad => ?_, fun hmem hwide => ?_⟩
  · refine raises_of_effect (i := .crcConstruct slot order refl poly init xorout) h ?_
    exact (congrArg _ he).trans (effect_crcConstruct_error (crcParamsOf_badOrder (mt exists_orderBits_iff.mp hbad)))
  · obtain ⟨o, ho⟩ := exists_orderBits_iff.mpr hmem
    rw [← ho] at hwide
    refine raises_of_effect (i := .crcConstruct slot order refl poly init xorout) h ?_
    exact (congrArg _ he).trans (effect_crcConstruct_error (crcParamsOf_tooWide ho hwide))

/-- Settles O30: a correct cache answers the generated table, and `InitReg` is the condition the statement spells. -/
theorem crcConstructBindsParameters : Obligations.CrcConstructBindsParameters := by
  rintro s slot order _ _ _ _ p h he hc ho rfl rfl rfl rfl hwf
  have hbind := completes_of_effect (i := .crcConstruct slot order p.reflect p.poly p.init p.xorout) h
    ((congrArg _ he).trans (effect_crcConstruct_ok (crcParamsOf_of_wf ho hwf)))
  simpa only [Instr.slot, cacheLookup_fst p hc, crcInit, initReg, Bool.and_eq_true, ho] using hbind

/-- Settles O33: the second command looks up the key the first one left in the cache; the CRC-32 results are computed. -/
theorem coldAndWarmCacheAgree : Obligations.ColdAndWarmCacheAgree := by
  constructor
  · intro s t u slot1 slot2 order refl poly init xorout hinv hne h1 ht h2 hu
    obtain ⟨-, -, -, hcache, -⟩ := (inv_iff_slotOk s).mp hinv
    obtain ⟨-, hk1, r1, hr1, rfl⟩ := exec_completed h1 ht
    obtain ⟨p, hp, rfl⟩ := effect_crcConstruct_eq_ok hr1
    obtain ⟨-, hk2, r2, hr2, rfl⟩ := exec_completed h2 hu
    obtain ⟨q, hq, rfl⟩ := effect_crcConstruct_eq_ok hr2
    obtain rfl : p = q := Except.ok.inj (hp.symm.trans hq)
    simp only [Instr.slot, State.done_cache, State.done_params, cacheLookup_idem] at hk1 hk2 ⊢
    refine ⟨trivial, crcInit s.params p (cacheLookup s.cache p).1, ?_, ?_, cacheLookup_fst p hcache⟩
    · rw [State.done_slotAt_ne _ _ _ hne, State.done_slotAt_same _ _ _ hk1]
    · exact State.done_slotAt_same _ _ _ hk2
  · decide +kernel

/-! ### UPDATE and FINALIZE -/

/-- The bytes of a message thread through the register piece by piece (43_crc R188). -/
theorem crcUpdate_append (c : CrcInst) (x y : List Byte) : crcUpdate (crcUpdate c x) y = crcUpdate c (x ++ y) :=
  congrArg (fun reg => { c with reg := reg }) List.foldl_append.symm

section
variable (p : Params) (cache : List (CrcParams × CrcTable)) (slot : Byte) {c : CrcInst}

theorem effect_update_crc (data : List Byte) (ha : c.phase = .active) :
    effect p cache (.update slot data) (.crc c) = .ok (.crc (crcUpdate c data), [], cache) := by
  simp only [effect, ha]

theorem effect_finalize_crc (ha : c.phase = .active) :
    effect p cache (.finalize slot) (.crc c) = .ok (.crc (crcFinalized c), crcResult c, cache) := by
  simp only [effect, ha]

end

/-- UPDATE of an active CRC slot. -/
theorem completes_update_crc {s : State} {slot : Byte} {c : CrcInst} (data : List Byte) (h : Ready s slot)
    (hc : s.slotAt (slotIndex slot) = .crc c) (ha : c.phase = .active) :
    Completes s slot (.crc (crcUpdate c data)) [] s.cache (exec (.update slot data) s) :=
  completes_of_effect (i := .update slot data) h ((congrArg _ hc).trans (effect_update_crc s.params s.cache slot data ha))

/-- Settles O36: the register is the fold of `crcByte`, whose last step is the byte appended. -/
theorem crcUpdateThreadsBytes : Obligations.CrcUpdateThreadsBytes := by
  intro s slot c h hc ha
  refine ⟨fun data => (crcUpdate c data).reg, fun data => completes_update_crc data h hc ha, rfl, fun data b => ?_,
    fun x y t hx => ?_⟩
  · exact congrArg CrcInst.reg (crcUpdate_append c data [b]).symm
  · obtain ⟨t', ht', hslot, -, hn, hcache, hf, -⟩ := completes_update_crc x h hc ha
    obtain rfl : t' = t := Host.Outcome.next.inj (ht'.symm.trans hx)
    have hy := completes_update_crc y ⟨hf, hn ▸ h.2⟩ hslot ha
    rwa [crcUpdate_append, hcache] at hy

/-- The result spells the whole masked value, which fits `order/8` bytes (43_crc R189). -/
theorem beNat_crcResult (c : CrcInst) :
    beNat (crcResult c) = ((c.reg ^^^ c.params.xorout) &&& mask (orderBits c.params.order)).toNat := by
  obtain ⟨-, hn, h8⟩ := orderBits_bounds c.params.order
  have hp : (256 : Nat) ^ (orderBits c.params.order / 8) = 2 ^ orderBits c.params.order := by
    rw [show (256 : Nat) = 2 ^ 8 by rfl, ← Nat.pow_mul, Nat.mul_div_cancel' (Nat.dvd_of_mod_eq_zero h8)]
  rw [crcResult, beNat_beBytesOf, hp, Nat.mod_eq_of_lt (fitsBits_iff.mp fun j hj => ?_)]
  simp [getLsbD_mask hn, Nat.not_lt.mpr hj]

/-- Settles O37: the answer is `crcResult`, read back by `beNat_crcResult`. -/
theorem crcFinalizeAnswersRegister : Obligations.CrcFinalizeAnswersRegister := fun s slot c h hc ha =>
  ⟨crcResult c, crcResult_length c, beNat_crcResult c, completes_of_effect (i := .finalize slot) h
    ((congrArg _ hc).trans (effect_finalize_crc s.params s.cache slot ha))⟩

end Sys2Proof.Machine
end

section
/-! PROOFS of the statement on the initial accumulators (44_md5 R211; 45_sha R231 to R245; 46_ripemd R277 to R281;
47_whirlpool R307; 48_tiger R336; 49_haval R360). -/

namespace Sys2Proof.Machine

open Sys2Proof.Claims

/-- `Init` takes the accumulator from the descriptor (41_engine R119). -/
@[simp] theorem hashInit_acc (a : Alg) : (hashInit a).acc = initialAcc a := rfl

/-- Settles O13: `Init` takes `initialAcc`, which is the list of the algorithm's rule, the same for all forms of HAVAL. -/
theorem initialAccumulatorsAsListed : Obligations.InitialAccumulatorsAsListed := by
  simp only [Obligations.InitialAccumulatorsAsListed, hashInit_acc]
  exact ⟨rfl, rfl, rfl, rfl, rfl, rfl, rfl, rfl, rfl, rfl, fun _ _ => rfl⟩

end Sys2Proof.Machine
end

section
/-! PROOFS of the statement on the message schedules (45_sha R232, R238). -/

namespace Sys2Proof.Machine

open Sys2Proof.Claims

/-! ### The words of a schedule -/

/-- The word `k` back from word `t` is word `t - k`. -/
theorem wordsBack_reverse_take {w k t : Nat} {ws : List (BitVec w)} (hk : 0 < k) (hkt : k ≤ t)
    (ht : t ≤ ws.length) : wordsBack (ws.take t).reverse k = ws.getD (t - k) 0 := by
  have hlen : (ws.take t).length = t := List.length_take_of_le ht
  rw [wordsBack, List.getD_reverse _ (by omega), hlen, show t - 1 - (k - 1) = t - k by omega,
    List.getD_eq_getElem?_getD, List.getElem?_take_of_lt (by omega), List.getD_eq_getElem?_getD]

section
variable {w : Nat} (next : List (BitVec w) → BitVec w) (n : Nat) (block : List Byte)

@[simp] theorem schedule_zero : schedule next 0 block = blockWords (beWords w block) := List.reverse_reverse _

/-- A schedule longer by one word ends with the word made from all before it. -/
theorem schedule_succ :
    schedule next (n + 1) block = schedule next n block ++ [next (schedule next n block).reverse] := by
  simp [schedule, List.range_succ]

theorem schedule_length : (schedule next n block).length = (blockWords (beWords w block)).length + n := by
  induction n with
  | zero => simp
  | succ n ih => simp [schedule_succ, ih, Nat.add_assoc]

/-- A shorter schedule begins every longer one. -/
theorem schedule_prefix {m n : Nat} (h : m ≤ n) : schedule next m block <+: schedule next n block := by
  induction n, h using Nat.le_induction with
  | base => exact List.prefix_refl _
  | succ n _ ih => exact ih.trans (schedule_succ next n block ▸ List.prefix_append _ _)

end

section
variable {w : Nat} {next : List (BitVec w) → BitVec w} {n : Nat} {block : List Byte}
  (hb : (blockWords (beWords w block)).length = 16)
include hb

theorem schedule_take_sixteen : (schedule next n block).take 16 = blockWords (beWords w block) := by
  have h := List.prefix_iff_eq_take.mp (schedule_prefix next block (Nat.zero_le n))
  rwa [schedule_zero, hb, eq_comm] at h

/-- Each word after the block's own is made by `next` from all words before it. -/
theorem schedule_getD {t : Nat} (h16 : 16 ≤ t) (ht : t < 16 + n) :
    (schedule next n block).getD t 0 = next ((schedule next n block).take t).reverse := by
  obtain ⟨m, rfl⟩ := Nat.exists_eq_add_of_le h16
  have hlen : (schedule next m block).length = 16 + m := hb ▸ schedule_length next m block
  obtain ⟨rest, hrest⟩ := schedule_prefix next block (show m + 1 ≤ n by omega)
  rw [← hrest, schedule_succ, List.append_assoc, List.take_left' hlen, List.getD_append_right _ _ _ _ hlen.le, hlen]
  simp

/-- The word `k` back from a word of the schedule, `k` at most 16. -/
theorem wordsBack_schedule {k t : Nat} (hk : 0 < k) (hk16 : k ≤ 16) (h16 : 16 ≤ t) (ht : t < 16 + n) :
    wordsBack ((schedule next n block).take t).reverse k = (schedule next n block).getD (t - k) 0 :=
  wordsBack_reverse_take hk (by omega) (by rw [schedule_length, hb]; omega)

end

/-! ### The recurrences -/

section
variable {n t : Nat} {block : List Byte} (h16 : 16 ≤ t) (ht : t < 16 + n)
include h16 ht

/-- The recurrence of SHA-1 (45_sha R232). -/
theorem sha1Schedule_getD (hb : (blockWords (beWords 32 block)).length = 16) :
    (schedule sha1Next n block).getD t 0 =
      rotl ((schedule sha1Next n block).getD (t - 3) 0 ^^^ (schedule sha1Next n block).getD (t - 8) 0 ^^^
        (schedule sha1Next n block).getD (t - 14) 0 ^^^ (schedule sha1Next n block).getD (t - 16) 0) 1 := by
  have back {k : Nat} (hk : 0 < k) (hk16 : k ≤ 16) := wordsBack_schedule (next := sha1Next) hb hk hk16 h16 ht
  rw [schedule_getD hb h16 ht, sha1Next, back (k := 3), back (k := 8), back (k := 14), back (k := 16)] <;> decide

/-- The recurrence of SHA-2 (45_sha R238). -/
theorem sha2Schedule_getD {w : Nat} (p : Sha2Params w) (hb : (blockWords (beWords w block)).length = 16) :
    (schedule (sha2Next p) n block).getD t 0 =
      p.smallSigma1 ((schedule (sha2Next p) n block).getD (t - 2) 0) + (schedule (sha2Next p) n block).getD (t - 7) 0 +
        p.smallSigma0 ((schedule (sha2Next p) n block).getD (t - 15) 0) +
        (schedule (sha2Next p) n block).getD (t - 16) 0 := by
  have back {k : Nat} (hk : 0 < k) (hk16 : k ≤ 16) := wordsBack_schedule (next := sha2Next p) hb hk hk16 h16 ht
  rw [schedule_getD hb h16 ht, sha2Next, back (k := 2), back (k := 7), back (k := 15), back (k := 16)] <;> decide

end

/-- A block of 16 words of either width is read whole. -/
theorem beWords_sixteen {w : Nat} (hw : w ∈ [32, 64]) {block : List Byte} (h : block.length = 2 * w) :
    beWords w block = some (blockWords (beWords w block)) ∧ (blockWords (beWords w block)).length = 16 := by
  simp only [List.mem_cons, List.not_mem_nil, or_false] at hw
  have hwhole : block.length % (w / 8) = 0 ∧ block.length / (w / 8) = 16 := by rcases hw with rfl | rfl <;> omega
  obtain ⟨hmod, hdiv⟩ := hwhole
  exact ⟨by simp [beWords_whole hmod], hdiv ▸ blockWords_beWords_length hmod⟩

/-- Settles O46: the block's words begin each schedule, and each later word is `next` of those before it
(`schedule_getD`). -/
theorem shaSchedulesSatisfyRecurrence : Obligations.ShaSchedulesSatisfyRecurrence := by
  constructor
  · intro block h
    obtain ⟨hread, hb⟩ := beWords_sixteen (w := 32) (by decide) h
    refine ⟨by rw [schedule_length, hb], by rwa [schedule_take_sixteen hb], fun t h16 ht => ?_⟩
    exact sha1Schedule_getD h16 ht hb
  · intro w hw p n block h
    obtain ⟨hread, hb⟩ := beWords_sixteen hw h
    refine ⟨by rw [schedule_length, hb], by rwa [schedule_take_sixteen hb], fun t h16 ht => ?_⟩
    exact sha2Schedule_getD h16 ht p hb

end Sys2Proof.Machine
end

section
/-! PROOFS of the statement on the two lines of RIPEMD (46_ripemd R278, R280, R282). -/

namespace Sys2Proof.Machine

open Sys2Proof.Claims

section
variable (x : List Word32)

/-! ### Each line as a step on its own registers -/

/-- Step `j` of the left line of RIPEMD-128 (46_ripemd R280). -/
def ripemd128Left (l : Regs4) (j : Nat) : Regs4 :=
  ripemdStep4 l (j / 16 + 1) (x.getD (ripemdRL.getD j 0) 0) (ripemdKL.getD (j / 16) 0) (ripemdSL.getD j 0)

/-- Step `j` of the right line of RIPEMD-128 (46_ripemd R280). -/
def ripemd128Right (r : Regs4) (j : Nat) : Regs4 :=
  ripemdStep4 r (4 - j / 16) (x.getD (ripemdRR.getD j 0) 0) (ripemd128KR.getD (j / 16) 0) (ripemdSR.getD j 0)

/-- Step `j` of the left line of RIPEMD-160 (46_ripemd R278). -/
def ripemd160Left (l : Regs5) (j : Nat) : Regs5 :=
  ripemdStep5 l (j / 16 + 1) (x.getD (ripemdRL.getD j 0) 0) (ripemdKL.getD (j / 16) 0) (ripemdSL.getD j 0)

/-- Step `j` of the right line of RIPEMD-160 (46_ripemd R278). -/
def ripemd160Right (r : Regs5) (j : Nat) : Regs5 :=
  ripemdStep5 r (5 - j / 16) (x.getD (ripemdRR.getD j 0) 0) (ripemd160KR.getD (j / 16) 0) (ripemdSR.getD j 0)

theorem ripemd128Step_mk (l r : Regs4) (j : Nat) :
    ripemd128Step x (l, r) j = (ripemd128Left x l j, ripemd128Right x r j) := rfl

theorem ripemd160Step_mk (l r : Regs5) (j : Nat) :
    ripemd160Step x (l, r) j = (ripemd160Left x l j, ripemd160Right x r j) := rfl

/-! ### The lines run apart -/

variable (js : List Nat)

theorem foldl_ripemd128Step (l r : Regs4) :
    js.foldl (ripemd128Step x) (l, r) = (js.foldl (ripemd128Left x) l, js.foldl (ripemd128Right x) r) :=
  js.foldl_hom₂ Prod.mk _ _ _ l r (ripemd128Step_mk x)

theorem foldl_ripemd160Step (l r : Regs5) :
    js.foldl (ripemd160Step x) (l, r) = (js.foldl (ripemd160Left x) l, js.foldl (ripemd160Right x) r) :=
  js.foldl_hom₂ Prod.mk _ _ _ l r (ripemd160Step_mk x)

end

/-- Settles O47: the pair of lines after any steps is each line run on its own start (`foldl_ripemd128Step`,
`foldl_ripemd160Step`), so a line's result does not mention the other's start. -/
theorem ripemdLinesAreIndependent : Obligations.RipemdLinesAreIndependent := by
  intro x js
  constructor
  · intro l r l' r'
    simp only [foldl_ripemd128Step, and_self]
  · intro l r l' r'
    simp only [foldl_ripemd160Step, and_self]

end Sys2Proof.Machine
end
section
/-! PROOFS of the statements on Whirlpool's round function and its tables (47_whirlpool R302 to R305). -/

namespace Sys2Proof.Machine

open Sys2Proof.Claims

/-! ### The layers of the round function, entry by entry (R304) -/

section
variable {m k : List Byte} {i j : Nat}

theorem whirlpoolAt_eq_getElem (h : 8 * i + j < m.length) : whirlpoolAt m i j = m[8 * i + j] :=
  List.getD_eq_getElem m 0 h

/-- Index `8*i + j` of the list is row `i` and column `j` (R300). -/
theorem whirlpoolAt_whirlpoolMatrix (f : Nat → Nat → Byte) (hi : i < 8) (hj : j < 8) :
    whirlpoolAt (whirlpoolMatrix f) i j = f i j := by
  have hrow : (8 * i + j) / 8 = i := by omega
  have hcol : (8 * i + j) % 8 = j := by omega
  rw [whirlpoolAt_eq_getElem (by rw [whirlpoolMatrix_length]; omega)]
  simp [whirlpoolMatrix, hrow, hcol]

theorem whirlpoolAt_whirlpoolGamma (h : 8 * i + j < m.length) :
    whirlpoolAt (whirlpoolGamma m) i j = whirlpoolSbox.getD (whirlpoolAt m i j).toNat 0 := by
  rw [whirlpoolAt_eq_getElem (by simpa [whirlpoolGamma] using h), whirlpoolAt_eq_getElem h]
  exact List.getElem_map _

/-- Column `j` goes down by `j` places: the row read for row `i + j` is row `i`. -/
theorem whirlpoolAt_whirlpoolPi (hi : i < 8) (hj : j < 8) :
    whirlpoolAt (whirlpoolPi m) ((i + j) % 8) j = whirlpoolAt m i j := by
  have hrow : ((i + j) % 8 + 8 - j) % 8 = i := by omega
  rw [whirlpoolPi, whirlpoolAt_whirlpoolMatrix _ (Nat.mod_lt _ (by decide)) hj, hrow]

/-- The column of the circulant matrix as the core computes it, on naturals, is the rule's `(j - t) mod 8`. -/
theorem circulantIndex_eq {t : Nat} (ht : t < 8) : (j + 8 - t) % 8 = (((j : Int) - (t : Int)) % 8).toNat := by omega

theorem whirlpoolAt_whirlpoolTheta (hi : i < 8) (hj : j < 8) :
    whirlpoolAt (whirlpoolTheta m) i j =
      (List.range 8).foldl
        (fun x t => x ^^^ gfMul (whirlpoolAt m i t) (whirlpoolC.getD (((j : Int) - (t : Int)) % 8).toNat 0)) 0 := by
  rw [whirlpoolTheta, whirlpoolAt_whirlpoolMatrix _ hi hj]
  refine List.foldl_ext _ _ 0 fun x t ht => ?_
  rw [circulantIndex_eq (List.mem_range.mp ht)]

theorem whirlpoolAt_whirlpoolSigma (hm : 8 * i + j < m.length) (hk : 8 * i + j < k.length) :
    whirlpoolAt (whirlpoolSigma k m) i j = whirlpoolAt m i j ^^^ whirlpoolAt k i j := by
  rw [whirlpoolAt_eq_getElem (by simpa [whirlpoolSigma] using ⟨hm, hk⟩), whirlpoolAt_eq_getElem hm,
    whirlpoolAt_eq_getElem hk]
  exact List.getElem_zipWith

end

/-- Settles O48: each layer's own entry lemma, at an index inside the 64 bytes. -/
theorem whirlpoolLayersEntryByEntry : Obligations.WhirlpoolLayersEntryByEntry := by
  intro m k i j hm hk hi hj
  have hlt : 8 * i + j < 64 := by omega
  have hm' : 8 * i + j < m.length := hm ▸ hlt
  exact ⟨whirlpoolAt_whirlpoolGamma hm', whirlpoolAt_whirlpoolPi hi hj, whirlpoolAt_whirlpoolTheta hi hj,
    whirlpoolAt_whirlpoolSigma hm' (hk ▸ hlt)⟩

/-! ### The S-box and the round constants (R302, R303, R305) -/

/-- The printed table of R303, as a whole, is the one the mini-boxes give (R302). -/
theorem map_toNat_whirlpoolSbox : whirlpoolSbox.map BitVec.toNat = (List.range 256).map miniSbox := by
  decide +kernel

theorem whirlpoolSbox_getD_toNat {n : Nat} (h : n < 256) : (whirlpoolSbox.getD n 0).toNat = miniSbox n := by
  have hn : n < ((List.range 256).map miniSbox).length := by simpa using h
  calc (whirlpoolSbox.getD n 0).toNat
      = (whirlpoolSbox.map BitVec.toNat).getD n 0 := (List.getD_map _ 0 BitVec.toNat).symm
    _ = ((List.range 256).map miniSbox).getD n 0 := by rw [map_toNat_whirlpoolSbox]
    _ = miniSbox n := by rw [List.getD_eq_getElem _ 0 hn, List.getElem_map, List.getElem_range]

section
variable {r : Nat} (hr : r ≤ 10)
include hr

/-- The eight bytes `c^r` takes from the S-box lie inside its 256. -/
theorem length_whirlpoolSbox_row : ((whirlpoolSbox.drop (8 * (r - 1))).take 8).length = 8 := by
  rw [List.length_take, List.length_drop, whirlpoolSbox_length]
  omega

theorem whirlpoolAt_whirlpoolRC_zero {j : Nat} (hj : j < 8) :
    whirlpoolAt (whirlpoolRC r) 0 j = whirlpoolSbox.getD (8 * (r - 1) + j) 0 := by
  have hrow := length_whirlpoolSbox_row hr
  rw [whirlpoolAt, whirlpoolRC, List.getD_append _ _ _ _ (by omega)]
  simp [List.getElem?_take_of_lt hj]

theorem whirlpoolAt_whirlpoolRC_of_ne_zero {i j : Nat} (h0 : i ≠ 0) (hi : i < 8) (hj : j < 8) :
    whirlpoolAt (whirlpoolRC r) i j = 0 := by
  have hrow := length_whirlpoolSbox_row hr
  rw [whirlpoolAt, whirlpoolRC, List.getD_append_right _ _ _ _ (by omega), List.getD_replicate _ (by omega)]

end

/-- Settles O49: the printed table read back entry by entry, and the two parts of `c^r`, its row from the table and the
zero rows below. -/
theorem whirlpoolSboxFromMiniBoxes : Obligations.WhirlpoolSboxFromMiniBoxes := by
  refine ⟨fun x => whirlpoolSbox_getD_toNat x.isLt, ?_⟩
  intro r hr i hi j hj
  have hr10 : r ≤ 10 := by simp at hr; omega
  have hi8 := List.mem_range.mp hi
  have hj8 := List.mem_range.mp hj
  split
  case isTrue h => exact h ▸ whirlpoolAt_whirlpoolRC_zero hr10 hj8
  case isFalse h => exact whirlpoolAt_whirlpoolRC_of_ne_zero hr10 h hi8 hj8

end Sys2Proof.Machine
end

section
/-! PROOFS of the statements on the rounds of Tiger (48_tiger R334, R337) and the steps of HAVAL (49_haval R366). -/

namespace Sys2Proof.Machine

/-- Settles O50: unrolled over eight words, the fold of a pass turns the roles after each round, and the core renames the
registers before and after its second and its third pass. -/
theorem tigerPassesAsWritten : Obligations.TigerPassesAsWritten := by
  intro t mul a0 b0 c0 x0 x1 x2 x3 x4 x5 x6 x7
  refine ⟨?_, ?_⟩
  · simp only [tigerPass, List.foldl_cons, List.foldl_nil, tigerTurn]
  · simp only [tigerCore, tigerPass2, tigerPass3, List.getD_cons_zero, List.getD_cons_succ]

/-- The register index as the core computes it, on naturals, is the rule's `(k - i) mod 8`. -/
theorem havalIndex_eq (k : Nat) {i : Nat} (hi : i < 32) : (32 + k - i) % 8 = (((k : Int) - (i : Int)) % 8).toNat := by
  omega

/-- A step writes one register, with the indices of the rule (49_haval R366). -/
theorem havalStep_eq_set (passes : HavalPasses) (w t : List Word32) (p : Nat) {i : Nat} (hi : i < 32) :
    havalStep passes w p t i =
      let x : Nat → Word32 := fun k => t.getD (((k : Int) - (i : Int)) % 8).toNat 0
      t.set (((7 : Int) - (i : Int)) % 8).toNat
        (rotr (havalRoundF passes p x) 7 + rotr (x 7) 11 + w.getD ((havalOrder p).getD i 0) 0 + havalK p i) := by
  have hwrite : (39 - i) % 8 = (((7 : Int) - (i : Int)) % 8).toNat := havalIndex_eq 7 hi
  simp only [havalStep, havalIndex_eq _ hi, hwrite]

/-- Settles O51: the written register is one of the eight, and it is the only one `havalStep_eq_set` names. -/
theorem havalStepRegisters : Obligations.HavalStepRegisters := by
  intro passes w t p i hi ht x
  have hlt : (((7 : Int) - (i : Int)) % 8).toNat < t.length := by omega
  refine ⟨(havalStep_length passes w p t i).trans ht, ?_, fun j hj => ?_⟩ <;> rw [havalStep_eq_set passes w t p hi]
  · simp only [List.getD_eq_getElem?_getD, List.getElem?_set_self hlt, Option.getD_some, x]
  · simp only [List.getD_eq_getElem?_getD, List.getElem?_set_ne hj.symm]

end Sys2Proof.Machine
end

section
/-! PROOFS of the statements on the errors (60_exceptions R401 to R405): busy and empty slots, the usage errors, and fault
entry. -/

namespace Sys2Proof.Machine

open Sys2Proof.Claims

/-! ### The slot's check comes before a command's own -/

section
variable (p : Params) (cache : List (CrcParams × CrcTable)) {v : Slot}

theorem constructEffect_busy (desc : Except ErrorCode Alg) (hv : v ≠ .empty) :
    constructEffect cache desc v = .error .slotBusy := by
  cases v with
  | empty => exact absurd rfl hv
  | hash i => rfl
  | crc c => rfl

theorem effect_crcConstruct_busy (slot order : Byte) (reflect : Bool) (poly init xorout : Word64) (hv : v ≠ .empty) :
    effect p cache (.crcConstruct slot order reflect poly init xorout) v = .error .slotBusy := by
  cases v with
  | empty => exact absurd rfl hv
  | hash i => rfl
  | crc c => rfl

/-- The five commands that need an engine in their slot find none. -/
theorem effect_empty_of_mem {slot : Byte} {data : List Byte} {i : Instr}
    (hi : i ∈ ([.reset slot, .update slot data, .finalize slot, .compute slot data, .destroy slot] : List Instr)) :
    i.slot = slot ∧ effect p cache i .empty = .error .slotEmpty := by
  simp only [List.mem_cons, List.not_mem_nil, or_false] at hi
  rcases hi with rfl | rfl | rfl | rfl | rfl <;> exact ⟨rfl, rfl⟩

end

/-- Settles O16: on an occupied slot no construction reads its parameters. -/
theorem constructionOnBusySlotRaises : Obligations.ConstructionOnBusySlotRaises := by
  intro s slot order b c reflect poly init xorout h hne
  refine ⟨fun ia hia => ?_, ?_, ?_⟩
  · obtain ⟨rfl, heff⟩ := effect_of_mem_plainConstructs s.params s.cache (s.slotAt (slotIndex slot)) hia
    exact raises_of_effect h (heff.trans (constructEffect_busy s.cache _ hne))
  · exact raises_of_effect (i := .constructHaval slot b c) h (constructEffect_busy s.cache _ hne)
  · exact raises_of_effect (i := .crcConstruct slot order reflect poly init xorout) h
      (effect_crcConstruct_busy s.params s.cache slot order reflect poly init xorout hne)

/-- Settles O18: none of the five commands has an effect on the empty slot. -/
theorem commandsOnEmptySlotRaise : Obligations.CommandsOnEmptySlotRaise := by
  intro s slot data h he i hi
  obtain ⟨rfl, heff⟩ := effect_empty_of_mem s.params s.cache hi
  refine raises_of_effect h ?_
  rw [he, heff]

/-! ### The usage errors -/

/-- On a ready device the fault a command raises is the error of its effect. -/
theorem effect_eq_error_of_fault {s t : State} {i : Instr} {r : FaultRecord} (h : Ready s i.slot)
    (hx : exec i s = .next t) (ht : t.fault = some r) :
    effect s.params s.cache i (s.slotAt (slotIndex i.slot)) = .error r.code := by
  cases hr : effect s.params s.cache i (s.slotAt (slotIndex i.slot)) with
  | error e =>
    have hraise : exec i s = .next (s.faulted e i.slot) := by rw [exec_ready i h.1 h.2, hr, answer]
    rw [hraise] at hx
    cases hx
    cases ht
    rfl
  | ok q =>
    rw [exec_of_effect h hr] at hx
    cases hx
    simp [h.1] at ht

section
variable {slot : Byte} {data : List Byte} {i : Instr}
  (hi : i ∈ ([.reset slot, .compute slot data, .status slot, .destroy slot] : List Instr))
include hi

theorem slot_eq_of_mem_eitherPhase : i.slot = slot := by
  simp only [List.mem_cons, List.not_mem_nil, or_false] at hi
  rcases hi with rfl | rfl | rfl | rfl <;> rfl

/-- The commands that are legal in either phase fail on the empty slot alone (60_exceptions R403). -/
theorem eq_slotEmpty_of_mem_eitherPhase {p : Params} {cache : List (CrcParams × CrcTable)} {v : Slot} {e : ErrorCode}
    (h : effect p cache i v = .error e) : e = .slotEmpty := by
  simp only [List.mem_cons, List.not_mem_nil, or_false] at hi
  cases v with
  | empty => rcases hi with rfl | rfl | rfl | rfl <;> cases h <;> rfl
  | hash j => rcases hi with rfl | rfl | rfl | rfl <;> cases h
  | crc c => rcases hi with rfl | rfl | rfl | rfl <;> cases h

end

/-- Settles O25: UPDATE and FINALIZE read the phase of either kind of engine, and the other commands raise SLOT_EMPTY
alone. -/
theorem finalizedInstanceRaisesUsageErrors : Obligations.FinalizedInstanceRaisesUsageErrors := by
  refine fun s slot data h => ⟨fun i hi hfin => ⟨?_, ?_⟩, fun c hc hfin => ⟨?_, ?_⟩, fun i hi t r hx ht => ?_⟩
  · exact raises_of_effect (i := .update slot data) h (by simp only [Instr.slot, hi, effect, hfin])
  · exact raises_of_effect (i := .finalize slot) h (by simp only [Instr.slot, hi, effect, hfin])
  · exact raises_of_effect (i := .update slot data) h (by simp only [Instr.slot, hc, effect, hfin])
  · exact raises_of_effect (i := .finalize slot) h (by simp only [Instr.slot, hc, effect, hfin])
  · have hready : Ready s i.slot := (slot_eq_of_mem_eitherPhase hi).symm ▸ h
    have hcode := eq_slotEmpty_of_mem_eitherPhase hi (effect_eq_error_of_fault hready hx ht)
    simp [isUsageError, hcode]

/-! ### Fault entry -/

/-- Settles O59: a command that leaves a fault raised an error, as a completing one keeps the fault record. -/
theorem faultEntryIsPrecise : Obligations.FaultEntryIsPrecise := by
  intro s t i hf hx ht
  rcases exec_cases i s with ⟨r, hr, -⟩ | ⟨-, e, he⟩ | ⟨-, -, r, -, he⟩
  · simp [hf] at hr
  · exact ⟨e, raises_of_eq_raise he⟩
  · rw [he] at hx
    cases hx
    exact absurd hf ht

end Sys2Proof.Machine
end

section
/-! PROOFS of the statements on device reset and on the end of a command (70_reset R440, R452). -/

namespace Sys2Proof.Machine

/-! ### An arrived command -/

/-- The command completes, or raises an error and leaves `ncmd` as it was (30_encoding R84; 60_exceptions R404). -/
def CompletesOrFaults (s : State) (o : StepOutcome) : Prop :=
  ∃ t, o = .next t ∧
    ((t.fault = none ∧ t.ncmd = s.ncmd + 1) ∨ ∃ r, t.fault = some r ∧ r.atNcmd = s.ncmd ∧ t.ncmd = s.ncmd)

theorem completesOrFaults_faulted (s : State) (e : ErrorCode) (slot : Byte) :
    CompletesOrFaults s (.next (s.faulted e slot)) :=
  ⟨_, rfl, .inr ⟨_, rfl, rfl, rfl⟩⟩

theorem completesOrFaults_exec {s : State} (i : Instr) (hf : s.fault = none) : CompletesOrFaults s (exec i s) := by
  rcases exec_cases i s with ⟨r, hr, -⟩ | ⟨-, e, he⟩ | ⟨-, -, r, -, he⟩
  · simp [hf] at hr
  · exact he ▸ completesOrFaults_faulted s e i.slot
  · exact ⟨_, he, .inl ⟨hf, rfl⟩⟩

/-- Once the bytes have arrived, one step is enough (70_reset R452). -/
theorem completesOrFaults_step {s : State} (hf : s.fault = none) (hd : decode s.commands ≠ .incomplete) :
    CompletesOrFaults s (step s) := by
  rcases step_cases s with ⟨r, hr, -⟩ | ⟨-, hd', -⟩ | ⟨-, why, slot, rest, e, -, hx⟩ | ⟨-, i, rest, -, hx⟩
  · simp [hf] at hr
  · exact absurd hd' hd
  · exact hx ▸ completesOrFaults_faulted { s with commands := rest } e slot
  · exact hx ▸ completesOrFaults_exec (s := { s with commands := rest }) i hf

/-- Settles O9: a halted or waiting engine answers a fault, and every other step completes or raises an error. -/
theorem arrivedCommandCompletesOrFaults : Obligations.ArrivedCommandCompletesOrFaults := by
  refine fun s => ⟨fun r h => ?_, completesOrFaults_step⟩
  rcases step_cases s with ⟨_, -, hx⟩ | ⟨-, -, hx⟩ | ⟨-, _, _, _, _, -, hx⟩ | ⟨hf, i, rest, -, hx⟩ <;> rw [hx] at h
  · cases h
  · cases h
  · cases h
  · obtain ⟨t, ht, -⟩ := completesOrFaults_exec (s := { s with commands := rest }) i hf
    simp [ht] at h

/-! ### Device reset -/

section
variable (n : Nat) (p : Params)

/-- Every slot is empty after device reset, and a number out of range reads as empty (70_reset R440). -/
theorem State.resetOf_slotAt (k : Nat) : (State.resetOf n p).slotAt k = .empty :=
  List.getElem?_getD_replicate_default_eq Slot.empty n k

theorem State.resetOf_nSlots : (State.resetOf n p).nSlots = n := List.length_replicate

/-- The invariant's clauses on the slots and on the cache hold of empty ones. -/
theorem inv_resetOf (h1 : 1 ≤ n) (h256 : n ≤ 256) : (State.resetOf n p).inv = true := by
  have hempty : ∀ v ∈ (State.resetOf n p).slots, v = .empty := fun _ hv => List.eq_of_mem_replicate hv
  rw [inv_iff, State.resetOf_nSlots]
  exact ⟨h1, h256, fun v hv => hempty v hv ▸ rfl, fun v hv => hempty v hv ▸ rfl, rfl, rfl⟩

end

/-- Settles O52: device reset is `State.resetOf` of the device's own slot count and parameters, and in the fault state every
answer is `halted`. -/
theorem deviceResetClearsEverything : Obligations.DeviceResetClearsEverything := by
  intro s
  refine ⟨State.resetOf_slotAt s.nSlots s.params, State.resetOf_nSlots s.nSlots s.params, rfl, rfl, rfl, rfl, rfl, rfl,
    fun r hr => ?_⟩
  obtain ⟨hstep, hexec⟩ := haltedEngineTakesNoStep s r hr
  exact ⟨fun t => by simp [hstep], fun i t => by simp [hexec i]⟩

/-- Settles O53: `State.reset` is a device of 4 slots. -/
theorem invariantHoldsAtReset : Obligations.InvariantHoldsAtReset :=
  ⟨inv_resetOf, inv_resetOf Config.exampleSlots Params.spec (by decide) (by decide)⟩

end Sys2Proof.Machine
end
